-- ==== Sys2Proof/Word.lean ====
section
/-! DEFINITION. The value types of 00_scope.md rules R10 and R12: what the spec treats as bits. -/

namespace Sys2Proof

/-- A `U32`: a limb, an index, a word of the host bus, a command (R10, R12). -/
abbrev Word := BitVec 32

/-- A `U64` (R12). -/
abbrev U64 := BitVec 64

/-- A `U128`: four limbs (R12). -/
abbrev U128 := BitVec 128

/-- A `U256`, the source's BigUint256: eight limbs, limb 0 least significant (R12). -/
abbrev U256 := BitVec 256

/-- `ZERO256` (R12). -/
abbrev zero256 : U256 := 0#256

/-- `ONES256 = 2^256 - 1` (R12). -/
abbrev ones256 : U256 := BitVec.allOnes 256

/-- The number of a vector register, `0..15` (R21, R100). -/
abbrev VReg := Fin 16

end Sys2Proof
end

