-- ==== Sys2Proof/Config.lean ====
section
/-! DEFINITION. What an implementation fixes (00_scope.md rules R5 to R9) and the free values of what the
spec leaves unspecified (93_implementation_defined.md U1, U4, U10). `Config.machine` is opaque: a claim about it holds
for every choice. -/

namespace Sys2Proof

/-- A state of a random stream (R9, R55). The spec leaves the type OPEN; a number codes any state.
DESIGN CHOICE, safe: log entry 3. -/
abbrev RngState := Nat

/-- The values that stand, after one reset, wherever R290 fixes none (93_implementation_defined.md U1, U10).
DESIGN CHOICE, safe: log entries 6, 7. -/
structure Cold where
  /-- The word at a bus address: vector limbs, `SCALAR`, `APPROX`, context words, `PERIOD`, `CAND`, `BEST_IDX`. -/
  word : Nat → Word
  /-- What a lane's candidate buffer `LCAND[l]` holds. -/
  laneCand : Nat → List Word
  /-- A lane's working state. -/
  laneWork : Nat → U256
  /-- A lane's XOR accumulator. -/
  laneProof : Nat → U256
  /-- The stream state `rng[l]` of a lane. -/
  laneRng : Nat → RngState
  /-- `DEADLINE`. -/
  deadline : Int
  /-- Whether `PHASE` is `Check`. -/
  phaseCheck : Bool
deriving Inhabited

/-- The configuration record that 00_scope.md section 4 says a model takes as an argument. -/
structure Config where
  /-- `B_MAX - 1`, so that `1 <= B_MAX <= 2^32 - 1` (R5). -/
  lanesLessOne : Fin 4294967295
  /-- `NIDX_MAX - 1`, so that `1 <= NIDX_MAX <= 429496729` (R6). -/
  indicesLessOne : Fin 429496729
  /-- `SAFETY_MARGIN_NS`, a constant of the implementation (R7). -/
  safetyMarginNs : Nat
  /-- `APPROX_FN`, a total function of its operand and of nothing else (R8). -/
  approxFn : U256 → U64
  /-- `RNG_INIT(seed, id)` (R9). -/
  rngInit : Word → Nat → RngState
  /-- `RNG_STEP`: the next state, and the increment less one (R9: the increment is in `1..10`). -/
  rngStep : RngState → RngState × Fin 10
  /-- Whether the lanes fail in the n-th batch step, so that the block falls back and sets `WARN` (R234).
  DESIGN CHOICE, safe: log entry 12. -/
  laneFallback : Nat → Bool
  /-- What the n-th reset leaves where R290 fixes nothing; 0 is power-on. -/
  cold : Nat → Cold
deriving Inhabited

/-- `B_MAX`, the number of lanes (R5). -/
def Config.bMax (cfg : Config) : Nat := cfg.lanesLessOne.val + 1

/-- `NIDX_MAX`, the capacity in words of every index memory (R6). -/
def Config.nidxMax (cfg : Config) : Nat := cfg.indicesLessOne.val + 1

/-- The configuration of the machine that is modelled. It has no body: nothing can be proved of the
parameters but their ranges. Log entry 2. -/
opaque Config.machine : Config

end Sys2Proof
end

