-- ==== Sys2Proof/Syntax.lean ====
section
/-! DEFINITION. The 16 commands of 30_encoding.md rule R105, the two host operations of 20_memory.md rule R70,
and the events by which the agents of 00_scope.md rule R14 move the machine. -/

namespace Sys2Proof

/-- A command: the word written to `CMD`, decoded (R105). Register operands are numbers `0..15`; every one of
them is legal (R100). -/
inductive Instr where
  /-- `NOP` (R131). -/
  | nop
  /-- `VZERO vd` (R132). -/
  | vzero (rd : VReg)
  /-- `VONES vd` (R133). -/
  | vones (rd : VReg)
  /-- `VCOPY vd, va` (R134). -/
  | vcopy (rd ra : VReg)
  /-- `VADD vd, va, vb` (R135). -/
  | vadd (rd ra rb : VReg)
  /-- `VADDS vd, va` (R136). -/
  | vadds (rd ra : VReg)
  /-- `VMUL vd, va, vb` (R137). -/
  | vmul (rd ra rb : VReg)
  /-- `VXOR vd, va, vb` (R138). -/
  | vxor (rd ra rb : VReg)
  /-- `VCMP va, vb` (R139). -/
  | vcmp (ra rb : VReg)
  /-- `VAPPROX va` (R148). -/
  | vapprox (ra : VReg)
  /-- `HSTEP vd, va` (R177). -/
  | hstep (rd ra : VReg)
  /-- `SEED vd` (R194). -/
  | seed (rd : VReg)
  /-- `EVAL vd` (R195). -/
  | eval (rd : VReg)
  /-- `COMBINE vd` (R196). -/
  | combine (rd : VReg)
  /-- `GEN` (R214). -/
  | gen
  /-- `START` (R222). -/
  | start
deriving DecidableEq, Repr

/-- One access of the host bus (R70). -/
inductive HostOp where
  /-- `RD addr`: a read of the word at a word address. -/
  | rd (addr : Word)
  /-- `WR addr, w`: a write of a word to a word address. -/
  | wr (addr data : Word)
deriving DecidableEq, Repr

/-- What happens next at the block's boundary, or whose turn it is (R14, R81).
DESIGN CHOICE: log entry 1. -/
inductive Event where
  /-- The host issues one bus access. -/
  | host (op : HostOp)
  /-- The scheduler has its turn: its enabled step is taken, if one is enabled. -/
  | scheduler
  /-- The environment presents a value at the time input `now` (R58). -/
  | clock (t : U64)
  /-- The platform applies the reset input (R290). -/
  | reset
deriving DecidableEq, Repr

end Sys2Proof
end

