-- ==== Sys2Proof/Machine/State.lean ====
section
/-! DEFINITION. Every piece of state that 10_state.md rule R20 gives the block, the model's own fields (the queue of
events, the time input, the read data, two counters), and the machine right after reset. -/

namespace Sys2Proof.Machine

/-- Why the machine stops with a fault: never. A host access always completes, and an error is recorded in `ERR`
and `ERRINFO`, not trapped (R15, R260). The type has no constructor: nobody raises a fault (safe: log entry 24). -/
inductive Fault where
deriving DecidableEq, Repr

/-- Why an instruction has no meaning. -/
inductive Refusal where
  /-- Raised by `exec` alone, for an instruction of the opcode table that the model gives no meaning yet. Safe: the
  machine stops where the hardware goes on. No arm raises it today. -/
  | notModelled (mnemonic : String)
deriving DecidableEq, Repr

/-- The result of `VCMP`, the flag `CMP` (R25). -/
inductive Cmp where
  | equal | less | greater
deriving DecidableEq, Repr

/-- The scheduler state `STATE` (R29); its code 3 never occurs. -/
inductive SchedState where
  | idle | searching | done
deriving DecidableEq, Repr

/-- Which scheduler step is the next one while Searching (R57). -/
inductive Phase where
  | batch | check
deriving DecidableEq, Repr

/-- A memory of 32-bit words, as the pairs of word index and word that differ from what an unwritten word reads
as, indices strictly rising. A cell is the smallest unit the block addresses, one word (R70, R75, R76).
DEDUCED, safe: log entry 8. -/
abbrev WordMem := List (Nat × Word)

/-- The 16 context words at `0x088 + n`, word `n` guarded by bit `n` of `CTX_VALID` (R38). -/
abbrev Context := Vector Word 16

/-- The private state of one lane (R54, R55). -/
structure Lane where
  /-- `LCAND[l]`: the words of the candidate the lane made last, in order (log entry 9). -/
  cand : List Word
  /-- The 256-bit working state. -/
  work : U256
  /-- The 256-bit XOR accumulator: after a batch step the proof of the lane's candidate. -/
  proof : U256
  /-- The stream state `rng[l]`. -/
  rng : RngState
deriving DecidableEq, Repr

/-- The whole machine (R20). -/
structure State where
  /-- `V0..V15` (R21). -/
  vregs : Vector U256 16
  /-- Flag `CARRY` (R25). -/
  carry : Bool
  /-- Flag `CMP` (R25). -/
  cmp : Cmp
  /-- `SCALAR` (R26). -/
  scalar : Word
  /-- `APPROX` (R27). -/
  approx : U64
  /-- `STATE` of `STATUS` (R29). -/
  sched : SchedState
  /-- `WARN` of `STATUS` (R29, R270). -/
  warn : Bool
  /-- `ERR`, bits 3:0 (R30). -/
  err : BitVec 4
  /-- `ERRINFO` (R31). -/
  errinfo : Word
  /-- `ROUND_ID`, `ROUND_SALT`, `CHAIN_DIGEST`, `HASH_STEPS`, `MAX_INDICES`, `C0..C3`, `DL_SRV`, `SKEW`, as the 16 words
  of R38's table (R32 to R37, R43, R44). -/
  context : Context
  /-- `PERIOD`, which no rule reads (R45). -/
  period : U64
  /-- `CTX_VALID` (R38). -/
  ctxValid : BitVec 16
  /-- `BATCH_B` (R46). -/
  batchB : Word
  /-- `RNG_SEED` (R47). -/
  rngSeed : Word
  /-- `BATCHES` (R48). -/
  batches : U64
  /-- `BEST_LEN` (R49). -/
  bestLen : Word
  /-- `BEST_PROOF` (R50). -/
  bestProof : U256
  /-- `CAND` (R52), by word index. -/
  cand : WordMem
  /-- `BEST_IDX` (R53), by word index. -/
  bestIdx : WordMem
  /-- The lanes `0..B_MAX-1`, hidden (R54, R55). -/
  lanes : List Lane
  /-- The host stream `rng[B_MAX]`, hidden (R55). -/
  hostRng : RngState
  /-- `DEADLINE`, hidden, an integer without bound (R56). -/
  deadline : Int
  /-- `PHASE`, hidden (R57). -/
  phase : Phase
  /-- The model's own: the events still to come, the next one first (log entry 1). -/
  inputs : List Event
  /-- The model's own: the value now presented at the time input (R58, log entry 10). -/
  now : U64
  /-- The model's own: the word that the last host read returned (R72, log entry 13). -/
  rdata : Word
  /-- The model's own: how many resets were applied since power-on; it picks the free values of R290. -/
  resets : Nat
  /-- The model's own: how many batch steps were taken since power-on; it picks the free value of R234. -/
  batchSteps : Nat
deriving DecidableEq, Repr

/-- The value of a lane at power-on, where no rule fixes one. DESIGN CHOICE: log entry 5. -/
def Lane.blank : Lane := { cand := [], work := 0, proof := 0, rng := 0 }

/-- The machine of configuration `cfg` right after power-on reset (R59, R290). The registers whose reset value the
spec does not give hold 0: DESIGN CHOICE, unsafe, log entries 4, 5. -/
def State.powerOn (cfg : Config) : State where
  vregs := Vector.replicate 16 0
  carry := false
  cmp := .equal
  scalar := 0
  approx := 0
  sched := .idle
  warn := false
  err := 0
  errinfo := 0
  context := Vector.replicate 16 0
  period := 0
  ctxValid := 0
  batchB := 1
  rngSeed := 0
  batches := 0
  bestLen := 0
  bestProof := ones256
  cand := []
  bestIdx := []
  lanes := List.replicate cfg.bMax Lane.blank
  hostRng := cfg.rngInit 0 cfg.bMax
  deadline := 0
  phase := .batch
  inputs := []
  now := 0
  rdata := 0
  resets := 0
  batchSteps := 0

/-- The machine right after reset (R290). -/
def State.reset : State := State.powerOn Config.machine

end Sys2Proof.Machine
end

