-- ==== Sys2Proof/Machine/Ops.lean ====
section
/-! DEFINITION. The named operations over memory and registers, recording an error (60_exceptions.md rule R262: what
the block has in place of taking an exception), and acknowledging errors (rule R271: what it has in place of returning
from one). -/

namespace Sys2Proof.Machine

/-! ### Word memories -/

/-- The word at an index; `cold` says what an unwritten word reads as. -/
def memRead (cold : Nat → Word) : WordMem → Nat → Word
  | [], a => cold a
  | (b, w) :: m, a => if a = b then w else memRead cold m a

/-- Lists `w` at index `a`, in order. -/
def memPut : WordMem → Nat → Word → WordMem
  | [], a, w => [(a, w)]
  | (b, x) :: m, a, w =>
    if a < b then (a, w) :: (b, x) :: m
    else if a = b then (a, w) :: m
    else (b, x) :: memPut m a w

/-- Removes index `a` from the list. -/
def memDrop : WordMem → Nat → WordMem
  | [], _ => []
  | (b, x) :: m, a => if a = b then m else (b, x) :: memDrop m a

/-- Writes a word. A word equal to what the unwritten index reads as is not listed, so that equal memories are equal
lists. -/
def memWrite (cold : Nat → Word) (m : WordMem) (a : Nat) (w : Word) : WordMem :=
  if w = cold a then memDrop m a else memPut m a w

/-- Writes consecutive words from index `a` on, in rising order (R87, R214, R227). -/
def memWriteFrom (cold : Nat → Word) (m : WordMem) (a : Nat) : List Word → WordMem
  | [] => m
  | w :: ws => memWriteFrom cold (memWrite cold m a w) (a + 1) ws

/-- The words `0..n-1`, in order. -/
def memWords (cold : Nat → Word) (m : WordMem) (n : Nat) : List Word :=
  (List.range n).map (memRead cold m)

/-- Every listed index is at least `lo` and the indices rise strictly. -/
def memRising (lo : Nat) : WordMem → Bool
  | [] => true
  | (a, _) :: m => decide (lo ≤ a) && memRising (a + 1) m

/-- The canonical form: indices rise strictly, none reaches `size`, and no entry equals what its unwritten index
reads as. -/
def memWf (cold : Nat → Word) (size : Nat) (m : WordMem) : Bool :=
  memRising 0 m && m.all fun c => decide (c.1 < size) && decide (c.2 ≠ cold c.1)

/-- The base word address of `CAND` (R71). -/
def candBase : Nat := 0x20000000

/-- The base word address of `BEST_IDX` (R71). -/
def bestIdxBase : Nat := 0x40000000

/-- What a word of `CAND` reads as that nothing has written since the last reset: a free value of its address.
DESIGN CHOICE: log entry 6. -/
def coldCand (cfg : Config) (s : State) (i : Nat) : Word := (cfg.cold s.resets).word (candBase + i)

/-- What a word of `BEST_IDX` reads as that nothing has written since the last reset (log entry 6). -/
def coldBestIdx (cfg : Config) (s : State) (i : Nat) : Word := (cfg.cold s.resets).word (bestIdxBase + i)

/-- `CAND[i]` (R52). -/
def readCand (cfg : Config) (s : State) (i : Nat) : Word := memRead (coldCand cfg s) s.cand i

/-- `CAND[i] <- w` (R52). -/
def writeCand (cfg : Config) (s : State) (i : Nat) (w : Word) : State :=
  { s with cand := memWrite (coldCand cfg s) s.cand i w }

/-- `BEST_IDX[i]` (R53). -/
def readBestIdx (cfg : Config) (s : State) (i : Nat) : Word := memRead (coldBestIdx cfg s) s.bestIdx i

/-! ### Halves of a 64-bit register (R74: the `_LO` word is `bits[31:0]`, at the lower address) -/

/-- The `_LO` word. -/
def lo32 (x : U64) : Word := x.extractLsb' 0 32

/-- The `_HI` word. -/
def hi32 (x : U64) : Word := x.extractLsb' 32 32

/-- The register with its `_LO` word replaced. -/
def setLo32 (x : U64) (w : Word) : U64 := hi32 x ++ w

/-- The register with its `_HI` word replaced. -/
def setHi32 (x : U64) (w : Word) : U64 := w ++ lo32 x

/-! ### Errors -/

/-- The four errors (R261). -/
inductive ErrorKind where
  | cfg | illcmd | busy | access
deriving DecidableEq, Repr

/-- The bit of `ERR` that records the error, whose number is the error's code (R261). -/
def errorBit : ErrorKind → BitVec 4
  | .cfg => 1#4
  | .illcmd => 2#4
  | .busy => 4#4
  | .access => 8#4

/-- `raise E(info)`: the sticky bit and the information word, and nothing else (R262, R269). -/
def raiseError (e : ErrorKind) (info : Word) (s : State) : State :=
  { s with err := s.err ||| errorBit e, errinfo := info }

/-- The host's acknowledgement: a write of `w` to `ERR` clears the bits that are 1 in `w`; `ERRINFO` stays
(R30, R31, R271). -/
def clearErrors (w : Word) (s : State) : State :=
  { s with err := s.err &&& ~~~(w.extractLsb' 0 4) }

end Sys2Proof.Machine
end

