-- ==== Sys2Proof/Machine/Flags.lean ====
section
/-! DEFINITION. The flags `CARRY` and `CMP` and the words `FLAGS`, `STATUS` that the host reads (10_state.md rules R25,
R29). -/

namespace Sys2Proof.Machine

/-- The code of `CMP` in `FLAGS` bits 2:1 (R25, R139). -/
def cmpCode : Cmp → BitVec 2
  | .equal => 0#2
  | .less => 1#2
  | .greater => 2#2

/-- `CARRY <- carryOut`, written by `VADD` and `VADDS` only (R25). -/
def State.setCarry (s : State) (c : Bool) : State := { s with carry := c }

/-- `CMP <- r`, written by `VCMP` only (R25). -/
def State.setCmp (s : State) (r : Cmp) : State := { s with cmp := r }

/-- The word a read of `FLAGS` returns: `CARRY` in bit 0, `CMP` in bits 2:1, zeros above (R25). -/
def flagsWord (s : State) : Word := 0#29 ++ cmpCode s.cmp ++ BitVec.ofBool s.carry

/-- The code of `STATE` (R29). -/
def schedCode : SchedState → BitVec 2
  | .idle => 0#2
  | .searching => 1#2
  | .done => 2#2

/-- The word a read of `STATUS` returns: `STATE` in bits 1:0, `WARN` in bit 2, zeros above (R29). -/
def statusWord (s : State) : Word := 0#29 ++ BitVec.ofBool s.warn ++ schedCode s.sched

end Sys2Proof.Machine
end

