-- ==== Sys2Proof/WellFormed.lean ====
section
/-! DEFINITION. Which command words are well formed: the formats and the match and mask table of 30_encoding.md
rules R103, R105 and R106. Every register number of `Instr` is `0..15` by its type, so every command is well formed
(R100: no used field has an illegal value); what can be ill formed is a word. -/

namespace Sys2Proof

/-- The six formats: which register fields a command uses (R103). -/
inductive Format where
  | Z | D | DA | DAB | AB | A
deriving DecidableEq, Repr

/-- The bits the decoder compares; the others are the used register fields (R103). -/
def Format.mask : Format → Word
  | .Z => 0xFFFFFFFF#32
  | .D => 0xFFFFF0FF#32
  | .DA => 0xFFFFF00F#32
  | .DAB => 0xFFFFF000#32
  | .AB => 0xFFFFFF00#32
  | .A => 0xFFFFFF0F#32

/-- One row of the opcode map: the mnemonic, the format, and the word with every used register field zero,
the column `match` of R105. -/
structure OpcodeRow where
  mnemonic : String
  format : Format
  pattern : Word
deriving DecidableEq, Repr

/-- A word is the command of a row exactly when its masked bits are the row's (R105). -/
def OpcodeRow.fits (row : OpcodeRow) (w : Word) : Bool := w &&& row.format.mask == row.pattern

/-- The opcode map (R105), row by row. -/
def opcodeMap : List OpcodeRow := [
  ⟨"NOP", .Z, 0x00000000#32⟩,
  ⟨"VZERO", .D, 0x01000000#32⟩,
  ⟨"VONES", .D, 0x02000000#32⟩,
  ⟨"VCOPY", .DA, 0x03000000#32⟩,
  ⟨"VADD", .DAB, 0x04000000#32⟩,
  ⟨"VADDS", .DA, 0x05000000#32⟩,
  ⟨"VMUL", .DAB, 0x06000000#32⟩,
  ⟨"VXOR", .DAB, 0x07000000#32⟩,
  ⟨"VCMP", .AB, 0x08000000#32⟩,
  ⟨"VAPPROX", .A, 0x09000000#32⟩,
  ⟨"HSTEP", .DA, 0x10000000#32⟩,
  ⟨"SEED", .D, 0x20000000#32⟩,
  ⟨"EVAL", .D, 0x21000000#32⟩,
  ⟨"COMBINE", .D, 0x22000000#32⟩,
  ⟨"GEN", .Z, 0x30000000#32⟩,
  ⟨"START", .Z, 0x40000000#32⟩]

/-- A word is well formed when it is one of the 16 commands; every other word is illegal (R106). -/
def wordWellFormed (w : Word) : Bool := opcodeMap.any (·.fits w)

/-- The format of a command (R105). -/
def Instr.format : Instr → Format
  | .nop => .Z
  | .vzero _ => .D
  | .vones _ => .D
  | .vcopy _ _ => .DA
  | .vadd _ _ _ => .DAB
  | .vadds _ _ => .DA
  | .vmul _ _ _ => .DAB
  | .vxor _ _ _ => .DAB
  | .vcmp _ _ => .AB
  | .vapprox _ => .A
  | .hstep _ _ => .DA
  | .seed _ => .D
  | .eval _ => .D
  | .combine _ => .D
  | .gen => .Z
  | .start => .Z

end Sys2Proof
end

