-- ==== Sys2Proof/Decode.lean ====
section
/-! DEFINITION. The decoder of 30_encoding.md rule R109, total on every 32-bit word and rejecting by name, and the
encoder of rule R105. -/

namespace Sys2Proof

/-- Why a word is not a command (R106). The block answers all three alike, by `ILLCMD` (R264). -/
inductive DecodeError where
  /-- The `z` field, bits 23:12, is not zero. -/
  | reservedFieldNotZero
  /-- The opcode is not one of the sixteen. -/
  | opcodeNotAssigned
  /-- A register field that the command's format does not use is not zero. -/
  | unusedFieldNotZero
deriving DecidableEq, Repr

/-- Opcode, bits 31:24 (R100). -/
def fieldOp (w : Word) : BitVec 8 := w.extractLsb' 24 8

/-- Must-be-zero field, bits 23:12 (R100). -/
def fieldZ (w : Word) : BitVec 12 := w.extractLsb' 12 12

/-- Destination register, bits 11:8 (R100). -/
def fieldRd (w : Word) : VReg := (w.extractLsb' 8 4).toFin

/-- First source register, bits 7:4 (R100). -/
def fieldRa (w : Word) : VReg := (w.extractLsb' 4 4).toFin

/-- Second source register, bits 3:0 (R100). -/
def fieldRb (w : Word) : VReg := (w.extractLsb' 0 4).toFin

/-- The command `i`, if the fields its format does not use are zero (R103). -/
def unusedZero (zero : Bool) (i : Instr) : Except DecodeError Instr :=
  if zero then .ok i else .error .unusedFieldNotZero

/-- The decoder (R109). -/
def decode (w : Word) : Except DecodeError Instr :=
  let rd := fieldRd w
  let ra := fieldRa w
  let rb := fieldRb w
  if fieldZ w ≠ 0 then .error .reservedFieldNotZero
  else match (fieldOp w).toNat with
    | 0x00 => unusedZero (rd = 0 && ra = 0 && rb = 0) .nop
    | 0x01 => unusedZero (ra = 0 && rb = 0) (.vzero rd)
    | 0x02 => unusedZero (ra = 0 && rb = 0) (.vones rd)
    | 0x03 => unusedZero (rb = 0) (.vcopy rd ra)
    | 0x04 => .ok (.vadd rd ra rb)
    | 0x05 => unusedZero (rb = 0) (.vadds rd ra)
    | 0x06 => .ok (.vmul rd ra rb)
    | 0x07 => .ok (.vxor rd ra rb)
    | 0x08 => unusedZero (rd = 0) (.vcmp ra rb)
    | 0x09 => unusedZero (rd = 0 && rb = 0) (.vapprox ra)
    | 0x10 => unusedZero (rb = 0) (.hstep rd ra)
    | 0x20 => unusedZero (ra = 0 && rb = 0) (.seed rd)
    | 0x21 => unusedZero (ra = 0 && rb = 0) (.eval rd)
    | 0x22 => unusedZero (ra = 0 && rb = 0) (.combine rd)
    | 0x30 => unusedZero (rd = 0 && ra = 0 && rb = 0) .gen
    | 0x40 => unusedZero (rd = 0 && ra = 0 && rb = 0) .start
    | _ => .error .opcodeNotAssigned

/-- The opcode of a command (R105). -/
def opcode : Instr → BitVec 8
  | .nop => 0x00
  | .vzero _ => 0x01
  | .vones _ => 0x02
  | .vcopy _ _ => 0x03
  | .vadd _ _ _ => 0x04
  | .vadds _ _ => 0x05
  | .vmul _ _ _ => 0x06
  | .vxor _ _ _ => 0x07
  | .vcmp _ _ => 0x08
  | .vapprox _ => 0x09
  | .hstep _ _ => 0x10
  | .seed _ => 0x20
  | .eval _ => 0x21
  | .combine _ => 0x22
  | .gen => 0x30
  | .start => 0x40

/-- The fields side by side: `op`, `z`, `rd`, `ra`, `rb` (R100). -/
def packWord (op : BitVec 8) (rd ra rb : VReg) : Word :=
  op ++ 0#12 ++ (BitVec.ofFin rd : BitVec 4) ++ (BitVec.ofFin ra : BitVec 4) ++ (BitVec.ofFin rb : BitVec 4)

/-- The word of a command: `match or (rd << 8) or (ra << 4) or rb` with the fields its format has (R105). -/
def encode (i : Instr) : Word :=
  match i with
  | .nop => packWord (opcode i) 0 0 0
  | .vzero rd => packWord (opcode i) rd 0 0
  | .vones rd => packWord (opcode i) rd 0 0
  | .vcopy rd ra => packWord (opcode i) rd ra 0
  | .vadd rd ra rb => packWord (opcode i) rd ra rb
  | .vadds rd ra => packWord (opcode i) rd ra 0
  | .vmul rd ra rb => packWord (opcode i) rd ra rb
  | .vxor rd ra rb => packWord (opcode i) rd ra rb
  | .vcmp ra rb => packWord (opcode i) 0 ra rb
  | .vapprox ra => packWord (opcode i) 0 ra 0
  | .hstep rd ra => packWord (opcode i) rd ra 0
  | .seed rd => packWord (opcode i) rd 0 0
  | .eval rd => packWord (opcode i) rd 0 0
  | .combine rd => packWord (opcode i) rd 0 0
  | .gen => packWord (opcode i) 0 0 0
  | .start => packWord (opcode i) 0 0 0

/-- What the decoder answers for the command whose table bits are `w` (spec/opcode_table.json numbers bit 0 as
the least significant; a command is one 32-bit word, so the word is the number itself). -/
def decodeTableWord (nbits w : Nat) : Option Instr :=
  (decode (BitVec.ofNat 32 (w % 2 ^ nbits))).toOption

end Sys2Proof
end

