-- ==== Sys2Proof/Machine/Limbs.lean ====
section
/-! DEFINITION. The limb algorithms of the arithmetic unit, written as 40_biguint256.md rules R140, R142, R144 and
41_hashstep.md rule R173 give them: limb lists, least significant limb first (00_scope.md rule R12). -/

namespace Sys2Proof.Machine

/-- `limb(x, k) = bits[32k+31 : 32k]` (R12). -/
def limb (x : U256) (k : Nat) : Word := x.extractLsb' (32 * k) 32

/-- The eight limbs of a `U256`, limb 0 first (R12). -/
def limbs8 (x : U256) : List Word :=
  [limb x 0, limb x 1, limb x 2, limb x 3, limb x 4, limb x 5, limb x 6, limb x 7]

/-- The four limbs of a `U128`, limb 0 first (R12). -/
def limbs4 (x : U128) : List Word :=
  [x.extractLsb' 0 32, x.extractLsb' 32 32, x.extractLsb' 64 32, x.extractLsb' 96 32]

/-- The number a limb list stands for: the sum of `limb k * 2^(32k)` (R12). -/
def limbsToNat : List Word → Nat
  | [] => 0
  | l :: ls => l.toNat + 2 ^ 32 * limbsToNat ls

/-- The `U256` of a limb list (R12). -/
def ofLimbs8 (ls : List Word) : U256 := BitVec.ofNat 256 (limbsToNat ls)

/-- The `U128` of a limb list (R12). -/
def ofLimbs4 (ls : List Word) : U128 := BitVec.ofNat 128 (limbsToNat ls)

/-- `x` with limb `k` replaced by `w` (R13, R22). -/
def setLimb (x : U256) (k : Nat) (w : Word) : U256 := ofLimbs8 ((limbs8 x).set k w)

/-- `lo128(x)`: limbs 0 to 3 (R12). -/
def lo128 (x : U256) : U128 := x.extractLsb' 0 128

/-- `hi128(x)`: limbs 4 to 7 (R12). -/
def hi128 (x : U256) : U128 := x.extractLsb' 128 128

/-- Ripple-carry addition of two limb lists with a carry in, limb by limb from limb 0; the sum's limbs and the carry
out (R140, R173). -/
def rippleAdd : List Word → List Word → Nat → List Word × Nat
  | a :: as, b :: bs, carry =>
    let t := a.toNat + b.toNat + carry
    let rest := rippleAdd as bs (t / 2 ^ 32)
    (BitVec.ofNat 32 (t % 2 ^ 32) :: rest.1, rest.2)
  | _, _, carry => ([], carry)

/-- `add256(a, b) = (sum, carryOut)` (R140). -/
def add256 (a b : U256) : U256 × Bool :=
  let r := rippleAdd (limbs8 a) (limbs8 b) 0
  (ofLimbs8 r.1, r.2 == 1)

/-- `addScalar(a, s) = add256(a, zext_256(s))` (R147). -/
def addScalar (a : U256) (s : Word) : U256 × Bool := add256 a (s.setWidth 256)

/-- `add4(x, y, cin) = (sum, cout)` (R173). -/
def add4 (x y : U128) (cin : Nat) : U128 × Nat :=
  let r := rippleAdd (limbs4 x) (limbs4 y) cin
  (ofLimbs4 r.1, r.2)

/-- The inner loop of the schoolbook multiply: adds `a * b[j]` to the window `p[i+j]`; the last carry is the limb
`p[i+4]` (R142). -/
def mulRow (a : Word) : List Word → List Word → Nat → List Word
  | b :: bs, p :: ps, carry =>
    let t := p.toNat + a.toNat * b.toNat + carry
    BitVec.ofNat 32 (t % 2 ^ 32) :: mulRow a bs ps (t / 2 ^ 32)
  | _, _, carry => [BitVec.ofNat 32 carry]

/-- The outer loop: one row per limb of `a`; the window `p` holds the limbs of the product that later rows still
change (R142). -/
def mulRows : List Word → List Word → List Word → List Word
  | [], _, p => p
  | a :: as, bs, p =>
    match mulRow a bs p 0 with
    | [] => []
    | q :: qs => q :: mulRows as bs qs

/-- `widenMul4(a, b)`, the full 128 by 128 to 256-bit multiply (R142). -/
def widenMul4 (a b : U128) : U256 := ofLimbs8 (mulRows (limbs4 a) (limbs4 b) [0, 0, 0, 0])

/-- Compares two limb lists from the first limb on; the caller gives the most significant limb first (R144). -/
def cmpLimbs : List Word → List Word → Cmp
  | a :: as, b :: bs => if a < b then .less else if b < a then .greater else cmpLimbs as bs
  | _, _ => .equal

/-- `cmp256(a, b)`: unsigned, from limb 7 down to limb 0 (R144). -/
def cmp256 (a b : U256) : Cmp := cmpLimbs (limbs8 a).reverse (limbs8 b).reverse

end Sys2Proof.Machine
end

