-- ==== Sys2Proof/Machine/Operands.lean ====
section
/-! DEFINITION. Where the operands of a command come from and where its result goes (30_encoding.md rule R104), and the
check of the context that a command needs (rule R108). -/

namespace Sys2Proof.Machine

/-! ### Vector registers -/

/-- `v[r]` (R13, R21). -/
def State.v (s : State) (r : VReg) : U256 := s.vregs.get r

/-- `v[r] <- x` (R13, R22). -/
def State.setV (s : State) (r : VReg) (x : U256) : State :=
  { s with vregs := s.vregs.set r.val x r.isLt }

/-! ### Context registers, by name -/

/-- `ROUND_ID_LO` at `0x088` (R32). -/
def roundIdLo (ctx : Context) : Word := ctx[0]
/-- `ROUND_ID_HI` at `0x089`, which no rule reads (R32). -/
def roundIdHi (ctx : Context) : Word := ctx[1]
/-- `ROUND_SALT_LO` at `0x08A` (R33). -/
def roundSaltLo (ctx : Context) : Word := ctx[2]
/-- `ROUND_SALT_HI` at `0x08B`, which no rule reads (R33). -/
def roundSaltHi (ctx : Context) : Word := ctx[3]
/-- `CHAIN_DIGEST_LO` at `0x08C` (R34). -/
def chainDigestLo (ctx : Context) : Word := ctx[4]
/-- `CHAIN_DIGEST_HI` at `0x08D`, which no rule reads (R34). -/
def chainDigestHi (ctx : Context) : Word := ctx[5]
/-- `HASH_STEPS` at `0x08E` (R35). -/
def hashSteps (ctx : Context) : Word := ctx[6]
/-- `MAX_INDICES` at `0x08F` (R36). -/
def maxIndices (ctx : Context) : Word := ctx[7]
/-- The round constants as a number, `C0 + C1 * 2^32 + C2 * 2^64 + C3 * 2^96` (R37, R171). -/
def roundConstants (ctx : Context) : U128 := ctx[11] ++ ctx[10] ++ ctx[9] ++ ctx[8]
/-- `DL_SRV`, unsigned, in nanoseconds (R43). -/
def dlSrv (ctx : Context) : U64 := ctx[13] ++ ctx[12]
/-- `SKEW`, whose signed value is its two's-complement number (R44, R11). -/
def skew (ctx : Context) : U64 := ctx[15] ++ ctx[14]

/-- A performed host write of context word `n`: the word is stored and its valid bit set (R38, R73). -/
def State.setContext (s : State) (n : Fin 16) (w : Word) : State :=
  { s with context := s.context.set n.val w n.isLt, ctxValid := s.ctxValid ||| BitVec.twoPow 16 n.val }

/-! ### What a command needs of the context -/

/-- `need(cmd)`, a mask over `CTX_VALID` (R108). -/
def need : Instr → BitVec 16
  | .nop => 0x0000
  | .vzero _ => 0x0000
  | .vones _ => 0x0000
  | .vcopy _ _ => 0x0000
  | .vadd _ _ _ => 0x0000
  | .vadds _ _ => 0x0000
  | .vmul _ _ _ => 0x0000
  | .vxor _ _ _ => 0x0000
  | .vcmp _ _ => 0x0000
  | .vapprox _ => 0x0000
  | .hstep _ _ => 0x0F00
  | .seed _ => 0x0015
  | .eval _ => 0x0F55
  | .combine _ => 0x0FD5
  | .gen => 0x0080
  | .start => 0xFFFF

/-- The commands that use an index memory, whose `MAX_INDICES` is checked against `NIDX_MAX` (R108). -/
def limited : Instr → Bool
  | .combine _ => true
  | .gen => true
  | .start => true
  | _ => false

/-- `missing`: the needed context words never written (R108). -/
def missingWords (i : Instr) (s : State) : BitVec 16 := need i &&& ~~~s.ctxValid

/-- `limit`: `MAX_INDICES` has been written and is above `NIDX_MAX` (R108, R263). -/
def overLimit (cfg : Config) (i : Instr) (s : State) : Bool :=
  limited i && s.ctxValid.getLsbD 7 && decide (cfg.nidxMax < (maxIndices s.context).toNat)

/-- The information word of `CFG`: `(op << 24) or (limit << 16) or missing` (R108, R263). -/
def cfgInfo (cfg : Config) (i : Instr) (s : State) : Word :=
  opcode i ++ 0#7 ++ BitVec.ofBool (overLimit cfg i s) ++ missingWords i s

/-- Whether the check of the context passes (R108). -/
def contextOk (cfg : Config) (i : Instr) (s : State) : Bool :=
  missingWords i s == 0 && !overLimit cfg i s

/-- Steps (2) and (3) of a command: record `CFG` if the context check fails, else perform (R101). -/
def checked (cfg : Config) (i : Instr) (s : State) (performed : State) : Host.Outcome State Fault Refusal :=
  if contextOk cfg i s then .next performed else .next (raiseError .cfg (cfgInfo cfg i s) s)

end Sys2Proof.Machine
end

