-- ==== Sys2Proof/Machine/BigUint.lean ====
section
/-! DEFINITION. The commands of 40_biguint256.md: `NOP`, `VZERO`, `VONES`, `VCOPY`, `VADD`, `VADDS`, `VMUL`, `VXOR`,
`VCMP`, `VAPPROX`. Sources are read before the destination is written (30_encoding.md rule R102). None needs a context
word and none records an error (rule R130). -/

namespace Sys2Proof.Machine

/-- `NOP` (R131). -/
def execNop (s : State) : Host.Outcome State Fault Refusal := .next s

/-- `VZERO vd`: `v[rd] <- ZERO256` (R132). -/
def execVzero (rd : VReg) (s : State) : Host.Outcome State Fault Refusal := .next (s.setV rd zero256)

/-- `VONES vd`: `v[rd] <- ONES256` (R133). -/
def execVones (rd : VReg) (s : State) : Host.Outcome State Fault Refusal := .next (s.setV rd ones256)

/-- `VCOPY vd, va`: `v[rd] <- v[ra]` (R134). -/
def execVcopy (rd ra : VReg) (s : State) : Host.Outcome State Fault Refusal := .next (s.setV rd (s.v ra))

/-- The sum goes to `v[rd]` and the carry out to `CARRY` (R135, R136). -/
def writeSum (rd : VReg) (r : U256 × Bool) (s : State) : State := (s.setV rd r.1).setCarry r.2

/-- `VADD vd, va, vb` (R135). -/
def execVadd (rd ra rb : VReg) (s : State) : Host.Outcome State Fault Refusal :=
  .next (writeSum rd (add256 (s.v ra) (s.v rb)) s)

/-- `VADDS vd, va`: adds the unsigned `SCALAR` (R136). -/
def execVadds (rd ra : VReg) (s : State) : Host.Outcome State Fault Refusal :=
  .next (writeSum rd (addScalar (s.v ra) s.scalar) s)

/-- `VMUL vd, va, vb`: limbs 0 to 3 of each source (R137). -/
def execVmul (rd ra rb : VReg) (s : State) : Host.Outcome State Fault Refusal :=
  .next (s.setV rd (widenMul4 (lo128 (s.v ra)) (lo128 (s.v rb))))

/-- `VXOR vd, va, vb` (R138). -/
def execVxor (rd ra rb : VReg) (s : State) : Host.Outcome State Fault Refusal :=
  .next (s.setV rd (s.v ra ^^^ s.v rb))

/-- `VCMP va, vb` (R139). -/
def execVcmp (ra rb : VReg) (s : State) : Host.Outcome State Fault Refusal :=
  .next (s.setCmp (cmp256 (s.v ra) (s.v rb)))

/-- `VAPPROX va` with a given configuration: `APPROX <- APPROX_FN(v[ra])` (R148). -/
def vapproxWith (cfg : Config) (ra : VReg) (s : State) : State := { s with approx := cfg.approxFn (s.v ra) }

/-- `VAPPROX va` (R148). -/
def execVapprox (ra : VReg) (s : State) : Host.Outcome State Fault Refusal :=
  .next (vapproxWith Config.machine ra s)

end Sys2Proof.Machine
end

