-- ==== Sys2Proof/Machine/Generator.lean ====
section
/-! DEFINITION. The candidate generator of 43_generator.md and the command `GEN`. -/

namespace Sys2Proof.Machine

/-- `draw`: the next state of a stream and one increment in `1..10` (R211). -/
def draw (cfg : Config) (r : RngState) : RngState × Nat :=
  ((cfg.rngStep r).1, (cfg.rngStep r).2.val + 1)

/-- The loop of `generate` from a cursor: `n` draws, each added to the cursor, which is appended (R212). The cursor
never passes `2^32 - 1` when `n <= NIDX_MAX` (R213). -/
def generateFrom (cfg : Config) : Nat → Nat → RngState → List Word × RngState
  | 0, _, r => ([], r)
  | n + 1, cursor, r =>
    let d := draw cfg r
    let rest := generateFrom cfg n (cursor + d.2) d.1
    (BitVec.ofNat 32 (cursor + d.2) :: rest.1, rest.2)

/-- `generate(n, id)` on the stream state of `id`: the sequence and the stream state after it (R212). -/
def generate (cfg : Config) (n : Nat) (r : RngState) : List Word × RngState := generateFrom cfg n 0 r

/-- What `GEN` does when its check passes: `CAND[0..n-1]` and the host stream (R214). -/
def genPerformed (cfg : Config) (s : State) : State :=
  let g := generate cfg (maxIndices s.context).toNat s.hostRng
  { s with cand := memWriteFrom (coldCand cfg s) s.cand 0 g.1, hostRng := g.2 }

/-- `GEN` with a given configuration (R214). -/
def genWith (cfg : Config) (s : State) : Host.Outcome State Fault Refusal :=
  checked cfg .gen s (genPerformed cfg s)

/-- `GEN` (R214). -/
def execGen (s : State) : Host.Outcome State Fault Refusal := genWith Config.machine s

end Sys2Proof.Machine
end

