-- ==== Sys2Proof/Machine/HashStep.lean ====
section
/-! DEFINITION. The ratchet of 41_hashstep.md and the command `HSTEP`. -/

namespace Sys2Proof.Machine

/-- `hashStep(state, c)`, the five steps (R172). The carry of step 3 enters the bottom limb of `Phi`; the carry of
step 4 is discarded. -/
def hashStep (x : U256) (c : U128) : U256 :=
  let product := widenMul4 (lo128 x) c
  let low := add4 (lo128 product) (hi128 x) 0
  let high := add4 (hi128 product) 0 low.2
  high.1 ++ low.1

/-- `hashStep^n(x, c)`, `hashStep` applied `n` times (R175). -/
def hashStepIter (c : U128) : Nat → U256 → U256
  | 0, x => x
  | n + 1, x => hashStep (hashStepIter c n x) c

/-- `HSTEP vd, va` with a given configuration (R177). -/
def hstepWith (cfg : Config) (rd ra : VReg) (s : State) : Host.Outcome State Fault Refusal :=
  checked cfg (.hstep rd ra) s (s.setV rd (hashStep (s.v ra) (roundConstants s.context)))

/-- `HSTEP vd, va` (R177). -/
def execHstep (rd ra : VReg) (s : State) : Host.Outcome State Fault Refusal := hstepWith Config.machine rd ra s

end Sys2Proof.Machine
end

