-- ==== Sys2Proof/Machine/SeedCombine.lean ====
section
/-! DEFINITION. Seed, evaluate, combine of 42_seed_combine.md and the commands `SEED`, `EVAL`, `COMBINE`. -/

namespace Sys2Proof.Machine

/-- `seed(index, ctx)`, limb by limb (R191). -/
def seedOf (ctx : Context) (index : Word) : U256 :=
  ofLimbs8 [index, 0, roundIdLo ctx, roundIdLo ctx, roundSaltLo ctx, roundSaltLo ctx,
    chainDigestLo ctx, chainDigestLo ctx]

/-- `evaluate(index, ctx) = hashStep^HASH_STEPS(seed(index, ctx), c)` (R192). -/
def evaluate (ctx : Context) (index : Word) : U256 :=
  hashStepIter (roundConstants ctx) (hashSteps ctx).toNat (seedOf ctx index)

/-- `combine(indices, ctx)`, the XOR fold that starts from `ZERO256` (R193). -/
def combine (ctx : Context) (indices : List Word) : U256 :=
  indices.foldl (fun acc i => acc ^^^ evaluate ctx i) zero256

/-- `SEED vd` with a given configuration (R194). -/
def seedWith (cfg : Config) (rd : VReg) (s : State) : Host.Outcome State Fault Refusal :=
  checked cfg (.seed rd) s (s.setV rd (seedOf s.context s.scalar))

/-- `SEED vd` (R194). -/
def execSeed (rd : VReg) (s : State) : Host.Outcome State Fault Refusal := seedWith Config.machine rd s

/-- `EVAL vd` with a given configuration (R195). -/
def evalWith (cfg : Config) (rd : VReg) (s : State) : Host.Outcome State Fault Refusal :=
  checked cfg (.eval rd) s (s.setV rd (evaluate s.context s.scalar))

/-- `EVAL vd` (R195). -/
def execEval (rd : VReg) (s : State) : Host.Outcome State Fault Refusal := evalWith Config.machine rd s

/-- The candidate in `CAND`: words `0..MAX_INDICES-1`, whatever they hold (R196, R197). -/
def candidateWords (cfg : Config) (s : State) : List Word :=
  memWords (coldCand cfg s) s.cand (maxIndices s.context).toNat

/-- `COMBINE vd` with a given configuration (R196). -/
def combineWith (cfg : Config) (rd : VReg) (s : State) : Host.Outcome State Fault Refusal :=
  checked cfg (.combine rd) s (s.setV rd (combine s.context (candidateWords cfg s)))

/-- `COMBINE vd` (R196). -/
def execCombine (rd : VReg) (s : State) : Host.Outcome State Fault Refusal := combineWith Config.machine rd s

end Sys2Proof.Machine
end

