-- ==== Sys2Proof/Machine/Scheduler.lean ====
section
/-! DEFINITION. The proof-search scheduler of 44_scheduler.md: the command `START`, the batch step and the check step. -/

namespace Sys2Proof.Machine

/-- `DEADLINE = DL_SRV + signed(SKEW) - SAFETY_MARGIN_NS`, an integer without bound (R223). -/
def deadlineOf (cfg : Config) (ctx : Context) : Int :=
  ((dlSrv ctx).toNat : Int) + (skew ctx).toInt - (cfg.safetyMarginNs : Int)

/-- The entry actions of `START` (R222). -/
def startPerformed (cfg : Config) (s : State) : State :=
  { s with
    deadline := deadlineOf cfg s.context
    bestProof := ones256
    bestLen := 0
    batches := 0
    warn := false
    lanes := s.lanes.mapIdx fun l lane => { lane with rng := cfg.rngInit s.rngSeed l }
    phase := .batch
    sched := .searching }

/-- `START` with a given configuration (R222). -/
def startWith (cfg : Config) (s : State) : Host.Outcome State Fault Refusal :=
  checked cfg .start s (startPerformed cfg s)

/-- `START` (R222). -/
def execStart (s : State) : Host.Outcome State Fault Refusal := startWith Config.machine s

/-- What one lane does in a batch step: a candidate from its own stream, and that candidate's proof in its
accumulator; the working state ends as the last evaluation (R54, R226). -/
def runLane (cfg : Config) (ctx : Context) (lane : Lane) : Lane :=
  let g := generate cfg (maxIndices ctx).toNat lane.rng
  { cand := g.1
    work := g.1.foldl (fun _ i => evaluate ctx i) lane.work
    proof := combine ctx g.1
    rng := g.2 }

/-- The batch-local best: the least `k` whose proof compares Greater than no other's (R227). -/
def batchBest (run : List Lane) : Option Lane :=
  run.find? fun l => run.all fun m => cmp256 l.proof m.proof != .greater

/-- The merge into the running best, only on strictly Less (R227, R221). -/
def mergeBest (cfg : Config) (l : Lane) (s : State) : State :=
  if cmp256 l.proof s.bestProof = .less then
    { s with
      bestProof := l.proof
      bestLen := maxIndices s.context
      bestIdx := memWriteFrom (coldBestIdx cfg s) s.bestIdx 0 l.cand }
  else s

/-- `reduce(proof, LCAND)` over the lanes that ran (R227). A batch of no lane, which no run has (R46), changes
nothing (log entry 23). -/
def reduceBatch (cfg : Config) (run : List Lane) (s : State) : State :=
  match batchBest run with
  | none => s
  | some l => mergeBest cfg l s

/-- The lanes `0..B-1` after their work in a batch step (R226, R235). -/
def batchRun (cfg : Config) (s : State) : List Lane :=
  (s.lanes.take s.batchB.toNat).map (runLane cfg s.context)

/-- The batch step (R226): the lanes `0..B-1` run, the batch is reduced, `BATCHES` counts it, `PHASE` becomes Check;
`WARN` may be set, for no reason the model can see (R234). -/
def batchStep (cfg : Config) (s : State) : State :=
  let run := batchRun cfg s
  { reduceBatch cfg run s with
    lanes := run ++ s.lanes.drop s.batchB.toNat
    batches := s.batches + 1
    phase := .check
    warn := s.warn || cfg.laneFallback s.batchSteps
    batchSteps := s.batchSteps + 1 }

/-- The check step: one sample of `now`; at or past `DEADLINE` the call is Done, else another batch (R229). -/
def checkStep (s : State) : State :=
  if s.deadline ≤ (s.now.toNat : Int) then { s with sched := .done } else { s with phase := .batch }

/-- The scheduler's turn: the one step that is enabled while Searching, none in Idle and Done (R225). -/
def schedulerStep (cfg : Config) (s : State) : State :=
  match s.sched, s.phase with
  | .searching, .batch => batchStep cfg s
  | .searching, .check => checkStep s
  | .idle, _ => s
  | .done, _ => s

end Sys2Proof.Machine
end

