-- ==== Sys2Proof/Machine/Dispatch.lean ====
section
/-! DEFINITION. The meaning of every command of the opcode map (30_encoding.md rule R105), one arm each: steps (2) and
(3) of rule R101. The step reaches it only where a write to `CMD` is performed, in Idle and Done. -/

namespace Sys2Proof.Machine

def exec (i : Instr) (s : State) : Host.Outcome State Fault Refusal :=
  match i with
  | .nop => Sys2Proof.Machine.execNop s
  | .vzero rd => Sys2Proof.Machine.execVzero rd s
  | .vones rd => Sys2Proof.Machine.execVones rd s
  | .vcopy rd ra => Sys2Proof.Machine.execVcopy rd ra s
  | .vadd rd ra rb => Sys2Proof.Machine.execVadd rd ra rb s
  | .vadds rd ra => Sys2Proof.Machine.execVadds rd ra s
  | .vmul rd ra rb => Sys2Proof.Machine.execVmul rd ra rb s
  | .vxor rd ra rb => Sys2Proof.Machine.execVxor rd ra rb s
  | .vcmp ra rb => Sys2Proof.Machine.execVcmp ra rb s
  | .vapprox ra => Sys2Proof.Machine.execVapprox ra s
  | .hstep rd ra => Sys2Proof.Machine.execHstep rd ra s
  | .seed rd => Sys2Proof.Machine.execSeed rd s
  | .eval rd => Sys2Proof.Machine.execEval rd s
  | .combine rd => Sys2Proof.Machine.execCombine rd s
  | .gen => Sys2Proof.Machine.execGen s
  | .start => Sys2Proof.Machine.execStart s

end Sys2Proof.Machine
end

