-- ==== Sys2Proof/Machine/Reset.lean ====
section
/-! DEFINITION. The reset event of 70_reset_and_hazards.md rules R290 and R291, applied to a running machine. -/

namespace Sys2Proof.Machine

/-- The vector registers after a reset: unspecified, each limb on its own (R21, R290). -/
def coldVregs (c : Cold) : Vector U256 16 :=
  Vector.ofFn fun r : Fin 16 => ofLimbs8 ((List.range 8).map fun k => c.word (8 * r.val + k))

/-- The context words after a reset: unspecified (R32 to R44, R290). -/
def coldContext (c : Cold) : Context := Vector.ofFn fun n : Fin 16 => c.word (0x88 + n.val)

/-- A lane after a reset: unspecified (R54, R55, R290). -/
def coldLane (c : Cold) (l : Nat) : Lane :=
  { cand := c.laneCand l, work := c.laneWork l, proof := c.laneProof l, rng := c.laneRng l }

/-- The reset event, in any `STATE` (R290, R291). What R290 leaves unspecified takes free values, fresh at each
reset: neither cleared nor kept (log entry 7). The environment's time and the events still to come are not the
block's to reset. -/
def resetEvent (cfg : Config) (s : State) : State :=
  let c := cfg.cold (s.resets + 1)
  { s with
    sched := .idle
    warn := false
    err := 0
    errinfo := 0
    carry := false
    cmp := .equal
    ctxValid := 0
    batchB := 1
    rngSeed := 0
    hostRng := cfg.rngInit 0 cfg.bMax
    batches := 0
    bestLen := 0
    bestProof := ones256
    vregs := coldVregs c
    scalar := c.word 0x85
    approx := c.word 0x87 ++ c.word 0x86
    context := coldContext c
    period := c.word 0x99 ++ c.word 0x98
    cand := []
    bestIdx := []
    lanes := (List.range cfg.bMax).map (coldLane c)
    deadline := c.deadline
    phase := if c.phaseCheck then .check else .batch
    resets := s.resets + 1 }

end Sys2Proof.Machine
end

