-- ==== Sys2Proof/Machine/Bus.lean ====
section
/-! DEFINITION. The host bus of 20_memory.md: the address map (rule R71, 10_state.md rule R59), the host read (R72), the
host write (R73), the execution of a word written to `CMD` (30_encoding.md rule R101), and what each event does. -/

namespace Sys2Proof.Machine

/-- The control and status registers that are one word and stand alone (R59). -/
inductive CtrlReg where
  | cmd | status | err | errinfo | flags | scalar | approxLo | approxHi | periodLo | periodHi | batchB | rngSeed
  | ctxValid | batchesLo | batchesHi | bestLen | cfgBmax | cfgNidxmax
deriving DecidableEq, Repr

/-- What a mapped word address names (R59, R71). -/
inductive Target where
  /-- `v[r].limb[k]` at `8r + k`. -/
  | limb (r : VReg) (k : Fin 8)
  /-- A control register at `0x080..0x0A9`. -/
  | ctrl (c : CtrlReg)
  /-- Context word `n` at `0x088 + n`. -/
  | context (n : Fin 16)
  /-- `BEST_PROOF` limb `k` at `0x0A0 + k`. -/
  | bestProof (k : Fin 8)
  /-- `CAND[i]` at `0x20000000 + i`. -/
  | cand (i : Nat)
  /-- `BEST_IDX[i]` at `0x40000000 + i`. -/
  | bestIdx (i : Nat)
deriving DecidableEq, Repr

/-- The control register at a word address (R59). -/
def ctrlRegAt : Nat → Option CtrlReg
  | 0x80 => some .cmd
  | 0x81 => some .status
  | 0x82 => some .err
  | 0x83 => some .errinfo
  | 0x84 => some .flags
  | 0x85 => some .scalar
  | 0x86 => some .approxLo
  | 0x87 => some .approxHi
  | 0x98 => some .periodLo
  | 0x99 => some .periodHi
  | 0x9A => some .batchB
  | 0x9B => some .rngSeed
  | 0x9C => some .ctxValid
  | 0x9D => some .batchesLo
  | 0x9E => some .batchesHi
  | 0x9F => some .bestLen
  | 0xA8 => some .cfgBmax
  | 0xA9 => some .cfgNidxmax
  | _ => none

/-- The address map: what an address names, or nothing where it is unmapped (R71). -/
def resolve (cfg : Config) (addr : Word) : Option Target :=
  let a := addr.toNat
  if h : a < 0x80 then some (.limb ⟨a / 8, by omega⟩ ⟨a % 8, by omega⟩)
  else if h : 0x88 ≤ a ∧ a < 0x98 then some (.context ⟨a - 0x88, by omega⟩)
  else if h : 0xA0 ≤ a ∧ a < 0xA8 then some (.bestProof ⟨a - 0xA0, by omega⟩)
  else if a < 0xAA then (ctrlRegAt a).map .ctrl
  else if candBase ≤ a ∧ a < candBase + cfg.nidxMax then some (.cand (a - candBase))
  else if bestIdxBase ≤ a ∧ a < bestIdxBase + cfg.nidxMax then some (.bestIdx (a - bestIdxBase))
  else none

/-- The current word of a control register, with its zero-padded fields (R72; `CMD` reads as 0, R28). -/
def readCtrl (cfg : Config) (s : State) : CtrlReg → Word
  | .cmd => 0
  | .status => statusWord s
  | .err => s.err.setWidth 32
  | .errinfo => s.errinfo
  | .flags => flagsWord s
  | .scalar => s.scalar
  | .approxLo => lo32 s.approx
  | .approxHi => hi32 s.approx
  | .periodLo => lo32 s.period
  | .periodHi => hi32 s.period
  | .batchB => s.batchB
  | .rngSeed => s.rngSeed
  | .ctxValid => s.ctxValid.setWidth 32
  | .batchesLo => lo32 s.batches
  | .batchesHi => hi32 s.batches
  | .bestLen => s.bestLen
  | .cfgBmax => BitVec.ofNat 32 cfg.bMax
  | .cfgNidxmax => BitVec.ofNat 32 cfg.nidxMax

/-- The current word at a mapped address (R72). -/
def readTarget (cfg : Config) (s : State) : Target → Word
  | .limb r k => limb (s.v r) k.val
  | .ctrl c => readCtrl cfg s c
  | .context n => s.context.get n
  | .bestProof k => limb s.bestProof k.val
  | .cand i => readCand cfg s i
  | .bestIdx i => readBestIdx cfg s i

/-- The host read: an unmapped address records `ACCESS` and returns 0; every other read returns the word and
changes nothing (R72, R77, R266). -/
def hostRead (cfg : Config) (addr : Word) (s : State) : State :=
  match resolve cfg addr with
  | none => { raiseError .access addr s with rdata := 0 }
  | some t => { s with rdata := readTarget cfg s t }

/-- The addresses a host write is refused at (R73, case 2). -/
def Target.readOnly : Target → Bool
  | .limb _ _ => false
  | .ctrl .cmd => false
  | .ctrl .status => true
  | .ctrl .err => false
  | .ctrl .errinfo => true
  | .ctrl .flags => true
  | .ctrl .scalar => false
  | .ctrl .approxLo => true
  | .ctrl .approxHi => true
  | .ctrl .periodLo => false
  | .ctrl .periodHi => false
  | .ctrl .batchB => false
  | .ctrl .rngSeed => false
  | .ctrl .ctxValid => true
  | .ctrl .batchesLo => true
  | .ctrl .batchesHi => true
  | .ctrl .bestLen => true
  | .ctrl .cfgBmax => true
  | .ctrl .cfgNidxmax => true
  | .context _ => false
  | .bestProof _ => true
  | .cand _ => false
  | .bestIdx _ => true

/-- The value `BATCH_B` takes: `min(max(w, 1), B_MAX)` (R46). -/
def clampBatch (cfg : Config) (w : Word) : Word := BitVec.ofNat 32 (min (max w.toNat 1) cfg.bMax)

/-- Executes a word written to `CMD`: decode, or record `ILLCMD` (R101, R264). -/
def runCommand (w : Word) (s : State) : Host.Outcome State Fault Refusal :=
  match decode w with
  | .error _ => .next (raiseError .illcmd w s)
  | .ok i => exec i s

/-- A performed write of a word other than to `CMD` (R73, case 4). -/
def storeTarget (cfg : Config) (w : Word) (s : State) : Target → State
  | .limb r k => s.setV r (setLimb (s.v r) k.val w)
  | .ctrl .err => clearErrors w s
  | .ctrl .scalar => { s with scalar := w }
  | .ctrl .periodLo => { s with period := setLo32 s.period w }
  | .ctrl .periodHi => { s with period := setHi32 s.period w }
  | .ctrl .batchB => { s with batchB := clampBatch cfg w }
  | .ctrl .rngSeed => { s with rngSeed := w, hostRng := cfg.rngInit w cfg.bMax }
  | .context n => s.setContext n w
  | .cand i => writeCand cfg s i w
  | _ => s

/-- A performed write (R73, case 4). -/
def performWrite (cfg : Config) (w : Word) (s : State) (t : Target) : Host.Outcome State Fault Refusal :=
  if t = .ctrl .cmd then runCommand w s else .next (storeTarget cfg w s t)

/-- The host write: `ACCESS` for an unmapped address, `ACCESS` for a read-only one, `BUSY` while Searching but for
`ERR`, else performed; the first that applies decides (R73, R267). -/
def hostWrite (cfg : Config) (addr w : Word) (s : State) : Host.Outcome State Fault Refusal :=
  match resolve cfg addr with
  | none => .next (raiseError .access addr s)
  | some t =>
    if t.readOnly then .next (raiseError .access addr s)
    else if s.sched = .searching ∧ t ≠ .ctrl .err then .next (raiseError .busy addr s)
    else performWrite cfg w s t

/-- The environment presents a time; the time input never goes back (R58, log entry 10). -/
def advanceClock (t : U64) (s : State) : State := if s.now ≤ t then { s with now := t } else s

/-- What one event does (R14). -/
def react (cfg : Config) (e : Event) (s : State) : Host.Outcome State Fault Refusal :=
  match e with
  | .host (.rd a) => .next (hostRead cfg a s)
  | .host (.wr a w) => hostWrite cfg a w s
  | .scheduler => .next (schedulerStep cfg s)
  | .clock t => .next (advanceClock t s)
  | .reset => .next (resetEvent cfg s)

/-- One step: the next event is taken and done; with no event to come, the scheduler, the only agent that moves by
itself, has its turn (R14, R225, R278, log entries 1, 11). -/
def takeStep (cfg : Config) (s : State) : Host.Outcome State Fault Refusal :=
  match s.inputs with
  | [] => .next (schedulerStep cfg s)
  | e :: rest => react cfg e { s with inputs := rest }

/-- The word address of `CMD` (R28). -/
def cmdAddr : Word := 0x80#32

/-- The machine with a write of `w` to `CMD` as the next event. -/
def presentCommand (w : Word) (s : State) : State :=
  { s with inputs := .host (.wr cmdAddr w) :: s.inputs }

end Sys2Proof.Machine
end

