-- ==== Sys2Proof/Machine/Step.lean ====
section
/-! DEFINITION. The step of the machine, and how a command word comes to be its next instruction. -/

namespace Sys2Proof.Machine

/-- One step of the machine. Every step answers a next state: a host access always completes (R15), and the
scheduler's steps raise nothing (R261). -/
def step (s : State) : Host.Outcome State Fault Refusal := takeStep Config.machine s

/-- `s` with the command of the table's bits `w` as the host's next bus write to `CMD`. The block fetches nothing
(R24): a program is the sequence of host accesses, and this write is its next one (log entry 1). It runs as a command
in Idle and Done; in Searching the hardware refuses it with `BUSY` (R73). -/
def State.withFetchWord (s : State) (nbits w : Nat) : State :=
  presentCommand (BitVec.ofNat 32 (w % 2 ^ nbits)) s

end Sys2Proof.Machine
end

