-- ==== Sys2Proof/Machine/Pseudo.lean ====
section
/-! DEFINITION. The assembler syntax and the pseudo-instructions of 30_encoding.md rules R110 and R111: each stands for a
list of host accesses. They add nothing to the machine; a host program is a list of accesses in `inputs`. -/

namespace Sys2Proof.Machine

/-- A command mnemonic on a line stands for `WR CMD, <its encoding>` (R110). -/
def commandLine (i : Instr) : List HostOp := [.wr cmdAddr (encode i)]

/-- The word address of limb `k` of `v[n]` (R22). -/
def limbAddr (n : VReg) (k : Nat) : Word := BitVec.ofNat 32 (8 * n.val + k)

/-- `VSET vn, [l0, ..., l7]`: eight writes, limb 0 first (R111). -/
def vset (n : VReg) (ls : Vector Word 8) : List HostOp :=
  (List.finRange 8).map fun k => .wr (limbAddr n k.val) (ls.get k)

/-- `VGET vn`: eight reads, limb 0 first (R111). -/
def vget (n : VReg) : List HostOp := (List.range 8).map fun k => .rd (limbAddr n k)

/-- The 64-bit registers that `SET64` names (R111). -/
inductive Reg64 where
  | roundId | roundSalt | chainDigest | dlSrv | skew | period
deriving DecidableEq, Repr

/-- The word address of the `_LO` word; the `_HI` word is the next one (R59). -/
def Reg64.loAddr : Reg64 → Word
  | .roundId => 0x088#32
  | .roundSalt => 0x08A#32
  | .chainDigest => 0x08C#32
  | .dlSrv => 0x094#32
  | .skew => 0x096#32
  | .period => 0x098#32

/-- `SET64 NAME, x`: the `_LO` word, then the `_HI` word (R111). -/
def set64 (n : Reg64) (x : U64) : List HostOp := [.wr n.loAddr (lo32 x), .wr (n.loAddr + 1) (hi32 x)]

/-- `SET64 SKEW, x` for a signed `x`, first taken to two's complement (R111). -/
def setSkew (x : Int) : List HostOp := set64 .skew (BitVec.ofInt 64 x)

/-- `SETC c0, c1, c2, c3` (R111). -/
def setC (c0 c1 c2 c3 : Word) : List HostOp :=
  [.wr 0x090#32 c0, .wr 0x091#32 c1, .wr 0x092#32 c2, .wr 0x093#32 c3]

/-- `CLRERR` (R111). -/
def clrErr : List HostOp := [.wr 0x082#32 0x0000000F#32]

/-- `WAITDONE` is the host's loop: it repeats this read ... (R111). -/
def waitDonePoll : HostOp := .rd 0x081#32

/-- ... until the word read says Done (R111). -/
def waitDoneOver (status : Word) : Bool := status.extractLsb' 0 2 == 2#2

/-- `GETBEST`, given the `BEST_LEN` that its first read returns (R111). -/
def getBest (len : Nat) : List HostOp :=
  .rd 0x09F#32 :: ((List.range 8).map fun k => .rd (BitVec.ofNat 32 (0x0A0 + k)))
    ++ (List.range len).map fun i => .rd (BitVec.ofNat 32 (bestIdxBase + i))

end Sys2Proof.Machine
end

