-- ==== Sys2Proof/Safety.lean ====
section
/-! DEFINITION. What the claims say of a state: the invariant that every step keeps, what a candidate is, and what it
means that the best result is genuine. -/

namespace Sys2Proof.Machine

/-- The invariant of the machine with configuration `cfg`: what R6, R46, R54, R222 and the memories' canonical form say of
every state that a run from reset reaches. -/
structure State.Inv (cfg : Config) (s : State) : Prop where
  /-- `CAND` is in canonical form and holds no word at or above `NIDX_MAX` (R52, R71). -/
  cand_wf : memWf (coldCand cfg s) cfg.nidxMax s.cand = true
  /-- `BEST_IDX` likewise (R53, R71). -/
  bestIdx_wf : memWf (coldBestIdx cfg s) cfg.nidxMax s.bestIdx = true
  /-- `BATCH_B` is at least 1 (R46). -/
  batchB_pos : 1 ≤ s.batchB.toNat
  /-- `BATCH_B` is at most `B_MAX` (R46). -/
  batchB_le : s.batchB.toNat ≤ cfg.bMax
  /-- There are `B_MAX` lanes (R235). -/
  lanes_length : s.lanes.length = cfg.bMax
  /-- The best result fits its memory (R49, R53). -/
  bestLen_le : s.bestLen.toNat ≤ cfg.nidxMax
  /-- A call runs only with the whole context written (R222). -/
  searching_valid : s.sched = .searching → s.ctxValid = BitVec.allOnes 16
  /-- A call runs only with a `MAX_INDICES` within the limit (R222). -/
  searching_limit : s.sched = .searching → (maxIndices s.context).toNat ≤ cfg.nidxMax

/-- Each word exceeds the one before it, at first `prev`, by 1 to 10 (R213). -/
def Spaced : Nat → List Word → Prop
  | _, [] => True
  | prev, w :: ws => prev + 1 ≤ w.toNat ∧ w.toNat ≤ prev + 10 ∧ Spaced w.toNat ws

/-- `BEST_IDX[0..BEST_LEN-1]` (R49, R53). -/
def bestWords (cfg : Config) (s : State) : List Word :=
  memWords (coldBestIdx cfg s) s.bestIdx s.bestLen.toNat

/-- The best result is that of a generated candidate, or no candidate has beaten the initial worst proof, or candidates
are empty (R232 items d and e, R233). -/
def BestGenuine (cfg : Config) (s : State) : Prop :=
  (s.bestLen = 0 ∧ s.bestProof = ones256) ∨
  (s.bestLen = maxIndices s.context ∧ Spaced 0 (bestWords cfg s) ∧
    s.bestProof = combine s.context (bestWords cfg s))

/-- In a call the running best is genuine. -/
def State.CallInv (cfg : Config) (s : State) : Prop := s.sched = .searching → BestGenuine cfg s

/-- The state one error later: one sticky bit of `ERR`, the information word, nothing else (R262). -/
def recordsError (bit : BitVec 4) (info : Word) (s : State) : State :=
  { s with err := s.err ||| bit, errinfo := info }

/-- The word of a command: `match or (rd << 8) or (ra << 4) or rb` (R105). -/
def commandWord (pattern : Word) (rd ra rb : VReg) : Word :=
  pattern ||| (BitVec.ofNat 32 rd.val <<< 8) ||| (BitVec.ofNat 32 ra.val <<< 4) ||| BitVec.ofNat 32 rb.val

/-- The addresses that the table of R71 calls unmapped. -/
def Unmapped (cfg : Config) (addr : Word) : Prop :=
  (0xAA ≤ addr.toNat ∧ addr.toNat < 0x20000000) ∨
  (0x20000000 + cfg.nidxMax ≤ addr.toNat ∧ addr.toNat < 0x40000000) ∨
  0x40000000 + cfg.nidxMax ≤ addr.toNat

/-- The read-only addresses of R73, case 2: `STATUS`, `ERRINFO`, `FLAGS`, `APPROX`, `CTX_VALID`, `BATCHES`, `BEST_LEN`,
`BEST_PROOF`, `CFG_BMAX`, `CFG_NIDXMAX`, `BEST_IDX`. -/
def ReadOnly (cfg : Config) (addr : Word) : Prop :=
  addr.toNat ∈ [0x81, 0x83, 0x84, 0x86, 0x87, 0x9C, 0x9D, 0x9E, 0x9F, 0xA8, 0xA9] ∨
  (0xA0 ≤ addr.toNat ∧ addr.toNat ≤ 0xA7) ∨
  (0x40000000 ≤ addr.toNat ∧ addr.toNat < 0x40000000 + cfg.nidxMax)

/-- The value of stream state `r` after `k` draws (R211). -/
def streamAfter (cfg : Config) (r : RngState) : Nat → RngState
  | 0 => r
  | k + 1 => (cfg.rngStep (streamAfter cfg r k)).1

/-- The `k`-th increment drawn from stream state `r`, counted from 0 (R211). -/
def increment (cfg : Config) (r : RngState) (k : Nat) : Nat := (cfg.rngStep (streamAfter cfg r k)).2.val + 1

/-- The cursor after slot `i`: the sum of the increments `0..i` (R212). -/
def cursorAt (cfg : Config) (r : RngState) : Nat → Nat
  | 0 => increment cfg r 0
  | i + 1 => cursorAt cfg r i + increment cfg r (i + 1)

end Sys2Proof.Machine
end

