-- ==== Sys2Proof/Certificates/Slice0/Obligations.lean ====
section
/-! DEFINITION. The statements for the provers. Each is about the machine, not about a program. `Config.machine` has no
body, so a statement holds for every configuration. An equation `exec i s = .next { s with … }` says the result, that
the command completes, and its frame at once: every field that is not named is as it was. -/

open Sys2Proof Sys2Proof.Machine

/-! ### Encoding -/

/-- Decoding the encoding of a command gives the command back (R105, R109). -/
def Obligations.DecodeOfEncode : Prop := ∀ i : Instr, decode (encode i) = .ok i

/-- A legal word is the encoding of the command it decodes to; so two different legal words never decode to the same
command with the same operands (R109). -/
def Obligations.EncodeOfDecode : Prop := ∀ (w : Word) (i : Instr), decode w = .ok i → encode i = w

/-- The decoder accepts exactly the words that the match and mask columns accept (R105, R106, R109). -/
def Obligations.DecoderAgreesWithOpcodeMap : Prop :=
  ∀ w : Word, (∃ i, decode w = .ok i) ↔ wordWellFormed w = true

/-- The words of commands as R105's formula builds them. -/
def Obligations.EncodingFormula : Prop :=
  ∀ rd ra rb : VReg,
    encode .nop = commandWord 0x00000000#32 0 0 0 ∧
    encode (.vzero rd) = commandWord 0x01000000#32 rd 0 0 ∧
    encode (.vones rd) = commandWord 0x02000000#32 rd 0 0 ∧
    encode (.vcopy rd ra) = commandWord 0x03000000#32 rd ra 0 ∧
    encode (.vadd rd ra rb) = commandWord 0x04000000#32 rd ra rb ∧
    encode (.vadds rd ra) = commandWord 0x05000000#32 rd ra 0 ∧
    encode (.vmul rd ra rb) = commandWord 0x06000000#32 rd ra rb ∧
    encode (.vxor rd ra rb) = commandWord 0x07000000#32 rd ra rb ∧
    encode (.vcmp ra rb) = commandWord 0x08000000#32 0 ra rb ∧
    encode (.vapprox ra) = commandWord 0x09000000#32 0 ra 0 ∧
    encode (.hstep rd ra) = commandWord 0x10000000#32 rd ra 0 ∧
    encode (.seed rd) = commandWord 0x20000000#32 rd 0 0 ∧
    encode (.eval rd) = commandWord 0x21000000#32 rd 0 0 ∧
    encode (.combine rd) = commandWord 0x22000000#32 rd 0 0 ∧
    encode .gen = commandWord 0x30000000#32 0 0 0 ∧
    encode .start = commandWord 0x40000000#32 0 0 0

/-- A few words written out from the encodings of the spec decode to what they stand for; four more are illegal
(95_test_vectors.md section 2.10). -/
def Obligations.SampleWordsDecode : Prop :=
  decode 0x04000312#32 = .ok (.vadd 3 1 2) ∧ decode 0x08000012#32 = .ok (.vcmp 1 2) ∧
  decode 0x09000070#32 = .ok (.vapprox 7) ∧ decode 0x10000110#32 = .ok (.hstep 1 1) ∧
  decode 0x22000900#32 = .ok (.combine 9) ∧ decode 0x30000000#32 = .ok .gen ∧
  decode 0x40000000#32 = .ok .start ∧
  decode 0x0A000000#32 = .error .opcodeNotAssigned ∧ decode 0x04100312#32 = .error .reservedFieldNotZero ∧
  decode 0x01000012#32 = .error .unusedFieldNotZero ∧ decode 0x40000100#32 = .error .unusedFieldNotZero

/-! ### The step -/

/-- When the next event is a write to `CMD` of a word that decodes to a command, and the scheduler is not Searching, the
step takes the event off the queue and is `exec` of that command (R101). -/
def Obligations.StepRunsDecodedCommand : Prop :=
  ∀ (s : State) (rest : List Event) (w : Word) (i : Instr),
    s.inputs = .host (.wr 0x80#32 w) :: rest → s.sched ≠ .searching → decode w = .ok i →
    step s = exec i { s with inputs := rest }

/-- Every step answers a next state: no trap, no stuck host, no hang (R15). -/
def Obligations.StepAlwaysCompletes : Prop := ∀ s : State, ∃ t, step s = .next t

/-- An illegal word written to `CMD` in Idle or Done records `ILLCMD` with the word, and nothing else (R264). -/
def Obligations.IllegalWordRecordsIllcmd : Prop :=
  ∀ (s : State) (rest : List Event) (w : Word),
    s.inputs = .host (.wr 0x80#32 w) :: rest → s.sched ≠ .searching → wordWellFormed w = false →
    step s = .next (recordsError 2#4 w { s with inputs := rest })

/-- A host access to an unmapped address records `ACCESS` with the address in every `STATE`; a read returns 0, a write
writes nothing. A write to a read-only address does the same (R266). -/
def Obligations.AccessErrors : Prop :=
  ∀ (s : State) (rest : List Event) (a w : Word),
    (s.inputs = .host (.rd a) :: rest → Unmapped Config.machine a →
      step s = .next { recordsError 8#4 a { s with inputs := rest } with rdata := 0 }) ∧
    (s.inputs = .host (.wr a w) :: rest → Unmapped Config.machine a ∨ ReadOnly Config.machine a →
      step s = .next (recordsError 8#4 a { s with inputs := rest }))

/-- While Searching, a write to any mapped, writable address but `ERR` records `BUSY` with the address and does nothing
else, whatever the word: no command is decoded or executed. Reads never record `BUSY`, in any `STATE` (R265). -/
def Obligations.WritesRefusedWhileSearching : Prop :=
  ∀ (s : State) (rest : List Event) (a w : Word),
    (s.inputs = .host (.wr a w) :: rest → s.sched = .searching →
      ¬ Unmapped Config.machine a → ¬ ReadOnly Config.machine a → a ≠ 0x82#32 →
      step s = .next (recordsError 4#4 a { s with inputs := rest })) ∧
    (s.inputs = .host (.rd a) :: rest →
      ∃ t, step s = .next t ∧ t.err &&& 4#4 = s.err &&& 4#4)

/-- A write of `w` to `ERR` clears the bits that are 1 in `w`, in every `STATE`, and leaves `ERRINFO` and all else
(R30, R271). -/
def Obligations.ErrClearPerformed : Prop :=
  ∀ (s : State) (rest : List Event) (w : Word),
    s.inputs = .host (.wr 0x82#32 w) :: rest →
    step s = .next { s with inputs := rest, err := s.err &&& ~~~(w.extractLsb' 0 4) }

/-- A step whose event is a read of a mapped address, in any `STATE`, takes the event off the queue, returns the word the
register map gives the address, and changes nothing else (R59, R72). -/
def Obligations.ReadsFollowRegisterMap : Prop :=
  ∀ (s : State) (rest : List Event),
    let returns := fun (a : Nat) (x : Word) =>
      s.inputs = .host (.rd (BitVec.ofNat 32 a)) :: rest → step s = .next { s with inputs := rest, rdata := x }
    (∀ (r : VReg) (k : Fin 8), returns (8 * r.val + k.val) ((s.v r).extractLsb' (32 * k.val) 32)) ∧
    returns 0x80 0 ∧
    returns 0x81 (BitVec.ofNat 32
      ((match s.sched with | .idle => 0 | .searching => 1 | .done => 2) + (if s.warn then 4 else 0))) ∧
    returns 0x82 (BitVec.ofNat 32 s.err.toNat) ∧
    returns 0x83 s.errinfo ∧
    returns 0x84 (BitVec.ofNat 32
      ((if s.carry then 1 else 0) + (match s.cmp with | .equal => 0 | .less => 2 | .greater => 4))) ∧
    returns 0x85 s.scalar ∧
    returns 0x86 (s.approx.extractLsb' 0 32) ∧ returns 0x87 (s.approx.extractLsb' 32 32) ∧
    (∀ n : Fin 16, returns (0x88 + n.val) (s.context.get n)) ∧
    returns 0x98 (s.period.extractLsb' 0 32) ∧ returns 0x99 (s.period.extractLsb' 32 32) ∧
    returns 0x9A s.batchB ∧ returns 0x9B s.rngSeed ∧
    returns 0x9C (BitVec.ofNat 32 s.ctxValid.toNat) ∧
    returns 0x9D (s.batches.extractLsb' 0 32) ∧ returns 0x9E (s.batches.extractLsb' 32 32) ∧
    returns 0x9F s.bestLen ∧
    (∀ k : Fin 8, returns (0xA0 + k.val) (s.bestProof.extractLsb' (32 * k.val) 32)) ∧
    returns 0xA8 (BitVec.ofNat 32 Config.machine.bMax) ∧
    returns 0xA9 (BitVec.ofNat 32 Config.machine.nidxMax) ∧
    (∀ i : Nat, i < Config.machine.nidxMax → returns (0x20000000 + i) (readCand Config.machine s i)) ∧
    (∀ i : Nat, i < Config.machine.nidxMax → returns (0x40000000 + i) (readBestIdx Config.machine s i))

/-- Outside Searching, a step whose event is a write to a writable control register takes the event off the queue and has the
effect that R73's table gives the register, and no other. `ERR`, which is writable in every `STATE`, is
`ErrClearPerformed`; `CMD` is `StepRunsDecodedCommand` and `IllegalWordRecordsIllcmd`. -/
def Obligations.WritesFollowRegisterMap : Prop :=
  ∀ (s : State) (rest : List Event) (w : Word), s.sched ≠ .searching →
    let becomes := fun (a : Nat) (t : State) =>
      s.inputs = .host (.wr (BitVec.ofNat 32 a) w) :: rest → step s = .next { t with inputs := rest }
    becomes 0x85 { s with scalar := w } ∧
    (∀ n : Fin 16, becomes (0x88 + n.val)
      { s with context := s.context.set n.val w n.isLt, ctxValid := s.ctxValid ||| BitVec.twoPow 16 n.val }) ∧
    becomes 0x98 { s with period := s.period.extractLsb' 32 32 ++ w } ∧
    becomes 0x99 { s with period := w ++ s.period.extractLsb' 0 32 } ∧
    becomes 0x9A { s with batchB := BitVec.ofNat 32 (min (max w.toNat 1) Config.machine.bMax) } ∧
    becomes 0x9B { s with rngSeed := w, hostRng := Config.machine.rngInit w Config.machine.bMax }

/-- Outside Searching, a step whose event is a write to limb `k` of `v[r]` takes the event off the queue and replaces that limb
only: the other seven limbs, the other vector registers and all other state stay (R22). -/
def Obligations.LimbWriteReplacesOneLimb : Prop :=
  ∀ (s : State) (rest : List Event) (w : Word) (r : VReg) (k : Fin 8), s.sched ≠ .searching →
    s.inputs = .host (.wr (BitVec.ofNat 32 (8 * r.val + k.val)) w) :: rest →
    ∃ t, step s = .next t ∧
      t = { s with inputs := rest, vregs := t.vregs } ∧
      (∀ q : VReg, q ≠ r → t.v q = s.v q) ∧
      (∀ j : Fin 8, (t.v r).extractLsb' (32 * j.val) 32 =
        if j = k then w else (s.v r).extractLsb' (32 * j.val) 32)

/-- Outside Searching, a step whose event is a write to `CAND[i]`, `i < NIDX_MAX`, takes the event off the queue and changes
that word only (R52, R73). -/
def Obligations.CandWriteChangesOneWord : Prop :=
  ∀ (s : State) (rest : List Event) (w : Word) (i : Nat), s.sched ≠ .searching → i < Config.machine.nidxMax →
    memWf (coldCand Config.machine s) Config.machine.nidxMax s.cand = true →
    s.inputs = .host (.wr (BitVec.ofNat 32 (0x20000000 + i)) w) :: rest →
    ∃ t, step s = .next t ∧
      t = { s with inputs := rest, cand := t.cand } ∧
      (∀ j : Nat, readCand Config.machine t j = if j = i then w else readCand Config.machine s j)

/-! ### The arithmetic unit -/

/-- `add256` is exact: `a + b = carry * 2^256 + sum` (R140, R141). -/
def Obligations.AddLaw : Prop :=
  ∀ a b : U256, a.toNat + b.toNat = (add256 a b).2.toNat * 2 ^ 256 + (add256 a b).1.toNat

/-- The 4-limb add with carry in (R173). -/
def Obligations.AddFourLimbsLaw : Prop :=
  ∀ (x y : U128) (cin : Nat), cin ≤ 1 →
    (add4 x y cin).1.toNat = (x.toNat + y.toNat + cin) % 2 ^ 128 ∧
    (add4 x y cin).2 = (x.toNat + y.toNat + cin) / 2 ^ 128

/-- The schoolbook multiply is the exact product, which always fits (R142, R143); its high half is at most `2^128 - 2`, the
spec's own inference, marked derived in R143. -/
def Obligations.MultiplyLaw : Prop :=
  ∀ a b : U128, (widenMul4 a b).toNat = a.toNat * b.toNat ∧ (hi128 (widenMul4 a b)).toNat ≤ 2 ^ 128 - 2

/-- The limb-wise comparison compares the numbers (R144). -/
def Obligations.CompareLaw : Prop :=
  ∀ a b : U256, cmp256 a b =
    if a.toNat < b.toNat then .less else if b.toNat < a.toNat then .greater else .equal

/-- The closed form of the hash step: nothing is truncated and the carry of step 4 is 0. The steps are R172 and R173; the
closed form is the spec's own inference, marked derived in R174. -/
def Obligations.HashStepClosedForm : Prop :=
  ∀ (x : U256) (c : U128),
    (hashStep x c).toNat = (lo128 x).toNat * c.toNat + (hi128 x).toNat ∧
    (lo128 x).toNat * c.toNat + (hi128 x).toNat < 2 ^ 256 ∧
    (add4 (hi128 (widenMul4 (lo128 x) c)) 0 (add4 (lo128 (widenMul4 (lo128 x) c)) (hi128 x) 0).2).2 = 0

/-- The limbs of a seed (R191). -/
def Obligations.SeedLimbs : Prop :=
  ∀ (ctx : Context) (index : Word),
    (List.range 8).map (fun k => (seedOf ctx index).extractLsb' (32 * k) 32) =
      [index, 0, ctx[0], ctx[0], ctx[2], ctx[2], ctx[4], ctx[4]]

/-- `combine` gives the same proof for every order of the indices, an index that occurs twice cancels itself, and the
empty sequence gives `ZERO256` (R193; that a repeated index cancels is the spec's own inference, marked derived there). -/
def Obligations.CombineOrderIndependent : Prop :=
  ∀ (ctx : Context) (xs ys : List Word), xs.Perm ys →
    combine ctx xs = combine ctx ys ∧
    (∀ i : Word, combine ctx (i :: i :: xs) = combine ctx xs) ∧
    (∀ i : Word, combine ctx (i :: xs) = evaluate ctx i ^^^ combine ctx xs) ∧
    combine ctx [] = 0

/-! ### Commands -/

/-- `NOP` changes no state (R131). -/
def Obligations.NopChangesNothing : Prop :=
  encode .nop = 0x00000000#32 ∧ ∀ s : State, exec .nop s = .next s

/-- `VZERO`, `VONES`, `VCOPY`, `VXOR` write `v[rd]` and nothing else (R132, R133, R134, R138). -/
def Obligations.MoveAndXorResults : Prop :=
  ∀ (rd ra rb : VReg) (s : State),
    (encode (.vzero rd) = commandWord 0x01000000#32 rd 0 0 ∧
      exec (.vzero rd) s = .next { s with vregs := s.vregs.set rd.val 0 rd.isLt }) ∧
    (encode (.vones rd) = commandWord 0x02000000#32 rd 0 0 ∧
      exec (.vones rd) s =
        .next { s with vregs := s.vregs.set rd.val (BitVec.ofNat 256 (2 ^ 256 - 1)) rd.isLt }) ∧
    (encode (.vcopy rd ra) = commandWord 0x03000000#32 rd ra 0 ∧
      exec (.vcopy rd ra) s = .next { s with vregs := s.vregs.set rd.val (s.vregs.get ra) rd.isLt }) ∧
    (encode (.vxor rd ra rb) = commandWord 0x07000000#32 rd ra rb ∧
      exec (.vxor rd ra rb) s =
        .next { s with vregs := s.vregs.set rd.val (s.vregs.get ra ^^^ s.vregs.get rb) rd.isLt })

/-- `VADD`: `v[rd]` is the sum modulo `2^256`, `CARRY` is 1 exactly when the sum reaches `2^256`; nothing else changes
(R135). -/
def Obligations.VaddResult : Prop :=
  ∀ (rd ra rb : VReg) (s : State),
    encode (.vadd rd ra rb) = commandWord 0x04000000#32 rd ra rb ∧
    exec (.vadd rd ra rb) s = .next { s with
      vregs := s.vregs.set rd.val
        (BitVec.ofNat 256 (((s.vregs.get ra).toNat + (s.vregs.get rb).toNat) % 2 ^ 256)) rd.isLt
      carry := decide (2 ^ 256 ≤ (s.vregs.get ra).toNat + (s.vregs.get rb).toNat) }

/-- `VADDS`: the same with the unsigned `SCALAR` (R136). -/
def Obligations.VaddsResult : Prop :=
  ∀ (rd ra : VReg) (s : State),
    encode (.vadds rd ra) = commandWord 0x05000000#32 rd ra 0 ∧
    exec (.vadds rd ra) s = .next { s with
      vregs := s.vregs.set rd.val
        (BitVec.ofNat 256 (((s.vregs.get ra).toNat + s.scalar.toNat) % 2 ^ 256)) rd.isLt
      carry := decide (2 ^ 256 ≤ (s.vregs.get ra).toNat + s.scalar.toNat) }

/-- `VMUL`: the exact product of the low halves; nothing else changes, the flags included (R137). -/
def Obligations.VmulResult : Prop :=
  ∀ (rd ra rb : VReg) (s : State),
    encode (.vmul rd ra rb) = commandWord 0x06000000#32 rd ra rb ∧
    exec (.vmul rd ra rb) s = .next { s with
      vregs := s.vregs.set rd.val
        (BitVec.ofNat 256 (((s.vregs.get ra).toNat % 2 ^ 128) * ((s.vregs.get rb).toNat % 2 ^ 128))) rd.isLt }

/-- `VCMP`: the numbers are compared as unsigned; only `CMP` is written (R139). -/
def Obligations.VcmpResult : Prop :=
  ∀ (ra rb : VReg) (s : State),
    encode (.vcmp ra rb) = commandWord 0x08000000#32 0 ra rb ∧
    exec (.vcmp ra rb) s = .next { s with
      cmp := if (s.vregs.get ra).toNat < (s.vregs.get rb).toNat then .less
        else if (s.vregs.get ra).toNat = (s.vregs.get rb).toNat then .equal else .greater }

/-- `VAPPROX`: `APPROX` is `APPROX_FN` of the operand; nothing else changes (R148). -/
def Obligations.VapproxResult : Prop :=
  ∀ (ra : VReg) (s : State),
    encode (.vapprox ra) = commandWord 0x09000000#32 0 ra 0 ∧
    exec (.vapprox ra) s = .next { s with approx := Config.machine.approxFn (s.vregs.get ra) }

/-- `HSTEP`: one ratchet step with `c = C0 + C1 * 2^32 + C2 * 2^64 + C3 * 2^96` once `C0..C3` have been written; before that
`CFG` and nothing else (R171, R177). -/
def Obligations.HstepResult : Prop :=
  ∀ (rd ra : VReg) (s : State),
    encode (.hstep rd ra) = commandWord 0x10000000#32 rd ra 0 ∧
    (s.ctxValid &&& 0x0F00#16 = 0x0F00#16 →
      exec (.hstep rd ra) s = .next { s with
        vregs := s.vregs.set rd.val (hashStep (s.vregs.get ra) (BitVec.ofNat 128
          (s.context[8].toNat + s.context[9].toNat * 2 ^ 32 + s.context[10].toNat * 2 ^ 64
            + s.context[11].toNat * 2 ^ 96))) rd.isLt }) ∧
    (s.ctxValid &&& 0x0F00#16 ≠ 0x0F00#16 →
      exec (.hstep rd ra) s =
        .next (recordsError 1#4 (0x10000000#32 ||| (0x0F00#16 &&& ~~~s.ctxValid).setWidth 32) s))

/-- `SEED`: `v[rd]` is the seed of `SCALAR` once its three context words have been written; before that `CFG` and nothing
else (R194). -/
def Obligations.SeedResult : Prop :=
  ∀ (rd : VReg) (s : State),
    encode (.seed rd) = commandWord 0x20000000#32 rd 0 0 ∧
    (s.ctxValid &&& 0x0015#16 = 0x0015#16 →
      exec (.seed rd) s = .next { s with
        vregs := s.vregs.set rd.val
          (s.context[4] ++ s.context[4] ++ s.context[2] ++ s.context[2] ++ s.context[0] ++ s.context[0]
            ++ 0#32 ++ s.scalar) rd.isLt }) ∧
    (s.ctxValid &&& 0x0015#16 ≠ 0x0015#16 →
      exec (.seed rd) s =
        .next (recordsError 1#4 (0x20000000#32 ||| (0x0015#16 &&& ~~~s.ctxValid).setWidth 32) s))

/-- `EVAL`: `v[rd]` is the seed of `SCALAR` after `HASH_STEPS` ratchet steps, the seed itself for none; `CFG` and nothing
else while a needed word is missing (R192, R195). -/
def Obligations.EvalResult : Prop :=
  ∀ (rd : VReg) (s : State),
    encode (.eval rd) = commandWord 0x21000000#32 rd 0 0 ∧
    (s.ctxValid &&& 0x0F55#16 = 0x0F55#16 →
      exec (.eval rd) s = .next { s with
        vregs := s.vregs.set rd.val
          ((fun x => hashStep x (roundConstants s.context))^[s.context[6].toNat] (seedOf s.context s.scalar))
          rd.isLt }) ∧
    (s.ctxValid &&& 0x0F55#16 ≠ 0x0F55#16 →
      exec (.eval rd) s =
        .next (recordsError 1#4 (0x21000000#32 ||| (0x0F55#16 &&& ~~~s.ctxValid).setWidth 32) s))

/-- `COMBINE`: `v[rd]` is the XOR of the evaluations of `CAND[0..MAX_INDICES-1]`, whatever the words are; `CFG` and nothing
else while a needed word is missing or `MAX_INDICES` is over the limit (R196). -/
def Obligations.CombineResult : Prop :=
  ∀ (rd : VReg) (s : State),
    encode (.combine rd) = commandWord 0x22000000#32 rd 0 0 ∧
    (s.ctxValid &&& 0x0FD5#16 = 0x0FD5#16 ∧ s.context[7].toNat ≤ Config.machine.nidxMax →
      exec (.combine rd) s = .next { s with
        vregs := s.vregs.set rd.val
          ((List.range s.context[7].toNat).foldr
            (fun i acc => evaluate s.context (readCand Config.machine s i) ^^^ acc) 0) rd.isLt }) ∧
    (¬ (s.ctxValid &&& 0x0FD5#16 = 0x0FD5#16 ∧ s.context[7].toNat ≤ Config.machine.nidxMax) →
      exec (.combine rd) s = .next (recordsError 1#4
        (0x22000000#32 |||
          (if s.ctxValid.getLsbD 7 ∧ Config.machine.nidxMax < s.context[7].toNat then 0x10000#32 else 0#32) |||
          (0x0FD5#16 &&& ~~~s.ctxValid).setWidth 32) s))

/-- `GEN`: slot `i` of `CAND` takes the sum of the first `i + 1` increments of the host stream, words at and above
`MAX_INDICES` stay, the host stream advances by `MAX_INDICES` draws, and nothing else changes; `CFG` and nothing else
while `MAX_INDICES` is missing or over the limit (R212, R214). -/
def Obligations.GenResult : Prop :=
  encode .gen = 0x30000000#32 ∧
  ∀ s : State,
    (memWf (coldCand Config.machine s) Config.machine.nidxMax s.cand = true →
      s.ctxValid.getLsbD 7 = true → s.context[7].toNat ≤ Config.machine.nidxMax →
      ∃ t, exec .gen s = .next t ∧
        t = { s with cand := t.cand, hostRng := streamAfter Config.machine s.hostRng s.context[7].toNat } ∧
        (∀ i : Nat, i < s.context[7].toNat →
          readCand Config.machine t i = BitVec.ofNat 32 (cursorAt Config.machine s.hostRng i)) ∧
        (∀ i : Nat, s.context[7].toNat ≤ i → readCand Config.machine t i = readCand Config.machine s i)) ∧
    (¬ (s.ctxValid.getLsbD 7 = true ∧ s.context[7].toNat ≤ Config.machine.nidxMax) →
      exec .gen s = .next (recordsError 1#4
        (if s.ctxValid.getLsbD 7 then 0x30010000#32 else 0x30000080#32) s))

/-- Every generated sequence rises by 1 to 10 from slot to slot, from 0; slot `i` lies in `i + 1 .. 10 (i + 1)`; there are
no duplicates; no addition wraps (R212, R213; the bounds are the spec's own inference, marked derived in R213). -/
def Obligations.GeneratedSequenceSpaced : Prop :=
  ∀ (n : Nat) (r : RngState), n ≤ Config.machine.nidxMax →
    (generate Config.machine n r).1.length = n ∧
    Spaced 0 (generate Config.machine n r).1 ∧
    (generate Config.machine n r).1.Pairwise (fun a b => a.toNat < b.toNat) ∧
    (∀ (i : Nat) (w : Word), (generate Config.machine n r).1[i]? = some w →
      i + 1 ≤ w.toNat ∧ w.toNat ≤ 10 * (i + 1) ∧ w.toNat = cursorAt Config.machine r i)

/-- `START` with the whole context written and `MAX_INDICES` within the limit: the entry actions, and nothing else;
otherwise `CFG` and nothing else; in Searching the write is refused with `BUSY` (R222, R223). -/
def Obligations.StartResult : Prop :=
  encode .start = 0x40000000#32 ∧
  ∀ s : State,
    (s.ctxValid = 0xFFFF#16 → s.context[7].toNat ≤ Config.machine.nidxMax →
      ∃ t, exec .start s = .next t ∧
        t = { s with
          deadline := ((s.context[13] ++ s.context[12] : U64).toNat : Int)
            + (s.context[15] ++ s.context[14] : U64).toInt - (Config.machine.safetyMarginNs : Int)
          bestProof := BitVec.ofNat 256 (2 ^ 256 - 1)
          bestLen := 0
          batches := 0
          warn := false
          lanes := t.lanes
          phase := .batch
          sched := .searching } ∧
        t.lanes.length = s.lanes.length ∧
        (∀ (l : Nat) (x y : Lane), s.lanes[l]? = some x → t.lanes[l]? = some y →
          y = { x with rng := Config.machine.rngInit s.rngSeed l })) ∧
    (¬ (s.ctxValid = 0xFFFF#16 ∧ s.context[7].toNat ≤ Config.machine.nidxMax) →
      exec .start s = .next (recordsError 1#4
        (0x40000000#32 |||
          (if s.ctxValid.getLsbD 7 ∧ Config.machine.nidxMax < s.context[7].toNat then 0x10000#32 else 0#32) |||
          (~~~s.ctxValid).setWidth 32) s)) ∧
    (∀ rest, s.sched = .searching → s.inputs = .host (.wr 0x80#32 0x40000000#32) :: rest →
      step s = .next (recordsError 4#4 0x80#32 { s with inputs := rest }))

/-! ### The scheduler -/

/-- In Idle and Done no scheduler step is enabled: the scheduler's turn changes nothing (R225). -/
def Obligations.NoSchedulerStepOutsideSearching : Prop :=
  ∀ s : State, s.sched ≠ .searching → schedulerStep Config.machine s = s

/-- The check step: at or past the deadline the call is Done, else there is another batch; nothing else changes
(R229). -/
def Obligations.CheckStepEffect : Prop :=
  ∀ s : State, s.sched = .searching → s.phase = .check →
    schedulerStep Config.machine s =
      if (s.now.toNat : Int) < s.deadline then { s with phase := .batch } else { s with sched := .done }

/-- The batch step: lane `k < B` makes the candidate of its own stream and its proof, the other lanes stay, `BATCHES` counts
the step, `PHASE` becomes Check, `WARN` is not cleared; the best result, the lanes and these are all that changes
(R226). -/
def Obligations.BatchStepEffect : Prop :=
  ∀ s : State, s.sched = .searching → s.phase = .batch →
    let t := schedulerStep Config.machine s
    t = { s with
      lanes := t.lanes
      bestProof := t.bestProof
      bestLen := t.bestLen
      bestIdx := t.bestIdx
      warn := t.warn
      batches := s.batches + 1
      phase := .check
      batchSteps := s.batchSteps + 1 } ∧
    (s.warn = true → t.warn = true) ∧
    t.lanes.length = s.lanes.length ∧
    (∀ (k : Nat) (x y : Lane), s.lanes[k]? = some x → t.lanes[k]? = some y →
      (k < s.batchB.toNat →
        y.cand = (generate Config.machine s.context[7].toNat x.rng).1 ∧
        y.rng = (generate Config.machine s.context[7].toNat x.rng).2 ∧
        y.proof = combine s.context y.cand) ∧
      (s.batchB.toNat ≤ k → y = x))

/-- The reduction: with `k` the least lane of the batch whose proof no other lane's proof is below, its proof and indices
replace the best result exactly when the proof is strictly less than the running best (R227). That the words of
`BEST_IDX` at and above `MAX_INDICES` read as before is the model's choice, log entry 16: R53 and U7 leave those words
unspecified. -/
def Obligations.ReductionTakesLeastLane : Prop :=
  ∀ (s : State) (k : Nat) (y : Lane), s.sched = .searching → s.phase = .batch →
    memWf (coldBestIdx Config.machine s) Config.machine.nidxMax s.bestIdx = true →
    let t := schedulerStep Config.machine s
    k < s.batchB.toNat → t.lanes[k]? = some y →
    (∀ (j : Nat) (z : Lane), j < s.batchB.toNat → t.lanes[j]? = some z → y.proof.toNat ≤ z.proof.toNat) →
    (∀ (j : Nat) (z : Lane), j < k → t.lanes[j]? = some z → y.proof.toNat < z.proof.toNat) →
    (y.proof.toNat < s.bestProof.toNat →
      t.bestProof = y.proof ∧ t.bestLen = s.context[7] ∧
      (∀ i : Nat, i < s.context[7].toNat → some (readBestIdx Config.machine t i) = y.cand[i]?) ∧
      (∀ i : Nat, s.context[7].toNat ≤ i →
        readBestIdx Config.machine t i = readBestIdx Config.machine s i)) ∧
    (s.bestProof.toNat ≤ y.proof.toNat →
      t.bestProof = s.bestProof ∧ t.bestLen = s.bestLen ∧ t.bestIdx = s.bestIdx)

/-- With `MAX_INDICES = 0` the first batch leaves the all-zero proof and the empty index sequence (R233). -/
def Obligations.EmptyCandidateGivesZeroProof : Prop :=
  ∀ s : State, s.sched = .searching → s.phase = .batch → s.context[7] = 0 →
    s.bestLen = 0 → 1 ≤ s.batchB.toNat → 1 ≤ s.lanes.length →
    let t := schedulerStep Config.machine s
    t.bestProof = 0 ∧ t.bestLen = 0 ∧ t.bestIdx = s.bestIdx

/-- A `START` with the deadline already past runs exactly one batch and is Done: three events, from any state where `START`
is performed (R232 item a). -/
def Obligations.PastDeadlineRunsOneBatch : Prop :=
  ∀ s : State, s.inputs = [.host (.wr 0x80#32 0x40000000#32), .scheduler, .scheduler] →
    s.sched ≠ .searching → s.ctxValid = 0xFFFF#16 → s.context[7].toNat ≤ Config.machine.nidxMax →
    deadlineOf Config.machine s.context ≤ (s.now.toNat : Int) →
    ∃ t, Host.Core.run Sys2Proof.core 3 s = .next t ∧ t.sched = .done ∧ t.batches = 1 ∧ t.inputs = []

/-- A deadline above every `U64` is never reached: no step but a reset leaves Searching (R231). -/
def Obligations.UnreachableDeadlineKeepsSearching : Prop :=
  ∀ s t : State, s.sched = .searching → (2 ^ 64 : Int) ≤ s.deadline → step s = .next t →
    (∀ rest, s.inputs ≠ .reset :: rest) → t.sched = .searching ∧ t.deadline = s.deadline

/-! ### The whole machine -/

/-- All changes of `STATE` (R224). -/
def Obligations.StateChangesOnlyAsTheTableSays : Prop :=
  ∀ s t : State, step s = .next t →
    t.sched = s.sched ∨
    (s.sched ≠ .searching ∧ t.sched = .searching ∧ t.phase = .batch ∧
      ∃ rest w, s.inputs = .host (.wr 0x80#32 w) :: rest ∧ decode w = .ok .start) ∨
    (s.sched = .searching ∧ s.phase = .check ∧ t.sched = .done ∧ s.deadline ≤ (s.now.toNat : Int) ∧
      (s.inputs = [] ∨ ∃ rest, s.inputs = .scheduler :: rest)) ∨
    (t.sched = .idle ∧ ∃ rest, s.inputs = .reset :: rest)

/-- During a call nothing but a reset changes the context, its valid bits, `BATCH_B`, `RNG_SEED`, the vector registers, the
flags, `SCALAR`, `APPROX`, `CAND`, `PERIOD` or the host stream (R54, R73, R226). -/
def Obligations.SearchLeavesHostStateAlone : Prop :=
  ∀ s t : State, s.sched = .searching → step s = .next t → (∀ rest, s.inputs ≠ .reset :: rest) →
    t.context = s.context ∧ t.ctxValid = s.ctxValid ∧ t.batchB = s.batchB ∧ t.rngSeed = s.rngSeed ∧
    t.vregs = s.vregs ∧ t.carry = s.carry ∧ t.cmp = s.cmp ∧ t.scalar = s.scalar ∧ t.approx = s.approx ∧
    t.cand = s.cand ∧ t.period = s.period ∧ t.hostRng = s.hostRng ∧ t.deadline = s.deadline

/-- Outside a call nothing but a performed `START` and a reset changes the result registers (R230). -/
def Obligations.ResultsStableOutsideSearching : Prop :=
  ∀ s t : State, s.sched ≠ .searching → step s = .next t → t.sched ≠ .searching →
    (∀ rest, s.inputs ≠ .reset :: rest) →
    t.bestProof = s.bestProof ∧ t.bestLen = s.bestLen ∧ t.bestIdx = s.bestIdx ∧ t.batches = s.batches

/-- During a call the best proof never gets worse (R221, R232 item b). -/
def Obligations.BestProofNeverWorsens : Prop :=
  ∀ s t : State, s.sched = .searching → step s = .next t → (∀ rest, s.inputs ≠ .reset :: rest) →
    t.bestProof.toNat ≤ s.bestProof.toNat

/-- The bits of `ERR` are sticky: only a write to `ERR` and a reset clear one (R30, R262). -/
def Obligations.ErrorBitsSticky : Prop :=
  ∀ s t : State, step s = .next t →
    (∀ rest, s.inputs ≠ .reset :: rest) → (∀ rest w, s.inputs ≠ .host (.wr 0x82#32 w) :: rest) →
    s.err &&& t.err = s.err ∧ (t.err = s.err ∨ ∃ b ∈ [1#4, 2#4, 4#4, 8#4], t.err = s.err ||| b)

/-- Nothing clears a bit of `CTX_VALID` except reset (R38). -/
def Obligations.ValidBitsPersist : Prop :=
  ∀ s t : State, step s = .next t → (∀ rest, s.inputs ≠ .reset :: rest) →
    s.ctxValid &&& t.ctxValid = s.ctxValid

/-- `CARRY` changes only by `VADD`, `VADDS` and reset, `CMP` only by `VCMP` and reset (R25). -/
def Obligations.FlagsWrittenOnlyByTheirCommands : Prop :=
  ∀ s t : State, step s = .next t → (∀ rest, s.inputs ≠ .reset :: rest) →
    (t.carry ≠ s.carry → ∃ rest w, s.inputs = .host (.wr 0x80#32 w) :: rest ∧
      ((∃ rd ra rb, decode w = .ok (.vadd rd ra rb)) ∨ (∃ rd ra, decode w = .ok (.vadds rd ra)))) ∧
    (t.cmp ≠ s.cmp → ∃ rest w, s.inputs = .host (.wr 0x80#32 w) :: rest ∧
      ∃ ra rb, decode w = .ok (.vcmp ra rb))

/-- Rewriting `RNG_SEED` makes the next `GEN` draw the same candidate again, whatever the host stream was (R47, R214). -/
def Obligations.SeedRewriteRepeatsCandidate : Prop :=
  ∀ (s s' t t' : State) (w : Word), s.sched ≠ .searching → s'.sched ≠ .searching →
    s.context[7] = s'.context[7] → s.context[7].toNat ≤ Config.machine.nidxMax →
    memWf (coldCand Config.machine s) Config.machine.nidxMax s.cand = true →
    memWf (coldCand Config.machine s') Config.machine.nidxMax s'.cand = true →
    s.ctxValid.getLsbD 7 = true → s'.ctxValid.getLsbD 7 = true →
    s.inputs = [.host (.wr 0x9B#32 w), .host (.wr 0x80#32 0x30000000#32)] →
    s'.inputs = [.host (.wr 0x9B#32 w), .host (.wr 0x80#32 0x30000000#32)] →
    Host.Core.run Sys2Proof.core 2 s = .next t → Host.Core.run Sys2Proof.core 2 s' = .next t' →
    ∀ i : Nat, i < s.context[7].toNat → readCand Config.machine t i = readCand Config.machine t' i

/-- Every step keeps the invariant, from every state that has it. -/
def Obligations.StepKeepsInv : Prop :=
  ∀ s t : State, s.Inv Config.machine → step s = .next t → t.Inv Config.machine

/-- The machine right after reset has the invariant. -/
def Obligations.ResetHasInv : Prop := State.reset.Inv Config.machine

/-- In a call the running best is the proof of a generated candidate, the one in `BEST_IDX`, or still the worst proof: every
step keeps this, and a call that becomes Done ends with it (R232 items d and e). -/
def Obligations.BestResultStaysGenuine : Prop :=
  ∀ s t : State, s.Inv Config.machine → s.CallInv Config.machine → step s = .next t →
    t.CallInv Config.machine ∧
    (s.sched = .searching → t.sched = .done → BestGenuine Config.machine t)

/-- Two memories in canonical form that read alike are equal data. The canonical form is the model's choice (log entry
8). -/
def Obligations.CanonicalMemoriesEqual : Prop :=
  ∀ (cold : Nat → Word) (size : Nat) (m m' : WordMem),
    memWf cold size m = true → memWf cold size m' = true →
    (∀ i, memRead cold m i = memRead cold m' i) → m = m'

/-! ### Reset -/

/-- The values that the reset event gives, in any `STATE` (R290, R291). -/
def Obligations.ResetEventValues : Prop :=
  ∀ (s : State) (rest : List Event), s.inputs = .reset :: rest →
    ∃ t, step s = .next t ∧ t.sched = .idle ∧ t.warn = false ∧ t.err = 0 ∧ t.errinfo = 0 ∧
      t.carry = false ∧ t.cmp = .equal ∧ t.ctxValid = 0 ∧ t.batchB = 1 ∧ t.rngSeed = 0 ∧
      t.hostRng = Config.machine.rngInit 0 Config.machine.bMax ∧ t.batches = 0 ∧ t.bestLen = 0 ∧
      t.bestProof = BitVec.ofNat 256 (2 ^ 256 - 1)

/-- The values of R290 at the machine's reset state. -/
def Obligations.ResetStateValues : Prop :=
  State.reset.sched = .idle ∧ State.reset.warn = false ∧ State.reset.err = 0 ∧ State.reset.errinfo = 0 ∧
  State.reset.carry = false ∧ State.reset.cmp = .equal ∧ State.reset.ctxValid = 0 ∧ State.reset.batchB = 1 ∧
  State.reset.rngSeed = 0 ∧ State.reset.hostRng = Config.machine.rngInit 0 Config.machine.bMax ∧
  State.reset.batches = 0 ∧ State.reset.bestLen = 0 ∧
  State.reset.bestProof = BitVec.ofNat 256 (2 ^ 256 - 1)

/-- The scheduler has its turn when the next event says so, and also, the model's choice (log entry 11), when no event is to
come; in either case the step is the scheduler's step, so a machine without events and without a call waits (R225,
R278). What that step does is `NoSchedulerStepOutsideSearching`, `CheckStepEffect`, `BatchStepEffect`,
`ReductionTakesLeastLane`, `EmptyCandidateGivesZeroProof`. -/
def Obligations.EmptyQueueWaitsOrSearches : Prop :=
  (∀ s : State, s.inputs = [] →
    step s = .next (if s.sched = .searching then schedulerStep Config.machine s else s)) ∧
  (∀ (s : State) (rest : List Event), s.inputs = .scheduler :: rest →
    step s = .next (schedulerStep Config.machine { s with inputs := rest }))

/-- The time input: a clock event gives `now` its value and changes nothing else; over every step `now` does not decrease, and
no step but a clock event changes it, a reset included (R58). That the time is a field of the state, and that a clock event
which would take it back is ignored, is the model's choice, log entry 10. -/
def Obligations.TimeChangesByClockEventsOnly : Prop :=
  (∀ (s : State) (rest : List Event) (c : U64), s.inputs = .clock c :: rest →
    (s.now.toNat ≤ c.toNat → step s = .next { s with inputs := rest, now := c }) ∧
    (c.toNat < s.now.toNat → step s = .next { s with inputs := rest })) ∧
  (∀ s t : State, step s = .next t →
    s.now.toNat ≤ t.now.toNat ∧ (t.now ≠ s.now → ∃ rest c, s.inputs = .clock c :: rest ∧ t.now = c))
end

