-- ==== Sys2Proof/Laws/Memory.lean ====
section
/-! SUPPORT. The laws of the word memories: a read after a write, the frame of a write, and that every operation keeps
the canonical form. -/

namespace Sys2Proof.Machine

section Reads
variable (cold : Nat → Word)

theorem memRead_memPut (m : WordMem) (a b : Nat) (w : Word) :
    memRead cold (memPut m a w) b = if b = a then w else memRead cold m b := by
  induction m with
  | nil => simp [memPut, memRead]
  | cons c m ih =>
    obtain ⟨k, x⟩ := c
    simp only [memPut]
    split
    · simp [memRead]
    · split
      · next h => subst h; simp only [memRead]; split <;> rfl
      · simp only [memRead, ih]
        split
        · next h1 h2 h3 => subst h3; simp [Ne.symm h2]
        · rfl

theorem memRead_of_lt {m : WordMem} {lo a : Nat} (h : memRising lo m = true) (ha : a < lo) :
    memRead cold m a = cold a := by
  induction m generalizing lo with
  | nil => rfl
  | cons c m ih =>
    obtain ⟨k, x⟩ := c
    simp only [memRising, Bool.and_eq_true, decide_eq_true_eq] at h
    have hne : a ≠ k := by omega
    simp only [memRead, if_neg hne]
    exact ih h.2 (by omega)

theorem memRead_memDrop {m : WordMem} {lo : Nat} (h : memRising lo m = true) (a b : Nat) :
    memRead cold (memDrop m a) b = if b = a then cold a else memRead cold m b := by
  induction m generalizing lo with
  | nil => simp only [memDrop, memRead]; split <;> simp_all
  | cons c m ih =>
    obtain ⟨k, x⟩ := c
    simp only [memRising, Bool.and_eq_true, decide_eq_true_eq] at h
    simp only [memDrop]
    split
    · next hk =>
      subst hk
      by_cases hb : b = a
      · subst hb; simp [memRead_of_lt cold h.2 (Nat.lt_succ_self _)]
      · simp [memRead, hb]
    · next hk =>
      simp only [memRead, ih h.2]
      by_cases hb : b = k
      · subst hb; simp [Ne.symm hk]
      · simp [hb]

/-- A read after a write: the written word at the written index, the old word elsewhere. -/
theorem memRead_memWrite {m : WordMem} {lo : Nat} (h : memRising lo m = true) (a b : Nat) (w : Word) :
    memRead cold (memWrite cold m a w) b = if b = a then w else memRead cold m b := by
  unfold memWrite
  split
  · next hw => rw [memRead_memDrop cold h]; simp [hw]
  · exact memRead_memPut cold m a b w

end Reads

section Form

theorem memRising_mono {m : WordMem} {lo lo' : Nat} (h : memRising lo m = true) (hl : lo' ≤ lo) :
    memRising lo' m = true := by
  cases m with
  | nil => rfl
  | cons c m =>
    simp only [memRising, Bool.and_eq_true, decide_eq_true_eq] at h ⊢
    exact ⟨by omega, h.2⟩

theorem memRising_memPut {m : WordMem} {lo a : Nat} (h : memRising lo m = true) (ha : lo ≤ a) (w : Word) :
    memRising lo (memPut m a w) = true := by
  induction m generalizing lo with
  | nil => simp [memPut, memRising, ha]
  | cons c m ih =>
    obtain ⟨k, x⟩ := c
    simp only [memRising, Bool.and_eq_true, decide_eq_true_eq] at h
    simp only [memPut]
    split
    · next hk => simp [memRising, ha, h.2]; omega
    · split
      · next hk => subst hk; simp [memRising, ha, h.2]
      · simp [memRising, h.1, ih h.2 (by omega)]

theorem memRising_memDrop {m : WordMem} {lo : Nat} (h : memRising lo m = true) (a : Nat) :
    memRising lo (memDrop m a) = true := by
  induction m generalizing lo with
  | nil => rfl
  | cons c m ih =>
    obtain ⟨k, x⟩ := c
    simp only [memRising, Bool.and_eq_true, decide_eq_true_eq] at h
    simp only [memDrop]
    split
    · exact memRising_mono h.2 (by omega)
    · simp [memRising, h.1, ih h.2]

theorem memRising_memWrite (cold : Nat → Word) {m : WordMem} (h : memRising 0 m = true) (a : Nat) (w : Word) :
    memRising 0 (memWrite cold m a w) = true := by
  unfold memWrite
  split
  · exact memRising_memDrop h a
  · exact memRising_memPut h (Nat.zero_le _) w

theorem memPut_all {p : Nat × Word → Bool} {m : WordMem} (h : m.all p = true) (a : Nat) (w : Word)
    (hp : p (a, w) = true) : (memPut m a w).all p = true := by
  induction m with
  | nil => simp [memPut, hp]
  | cons c m ih =>
    obtain ⟨k, x⟩ := c
    simp only [List.all_cons, Bool.and_eq_true] at h
    simp only [memPut]
    split
    · simp only [List.all_cons, Bool.and_eq_true]; exact ⟨hp, h.1, h.2⟩
    · split
      · simp only [List.all_cons, Bool.and_eq_true]; exact ⟨hp, h.2⟩
      · simp only [List.all_cons, Bool.and_eq_true]; exact ⟨h.1, ih h.2⟩

theorem memDrop_all {p : Nat × Word → Bool} {m : WordMem} (h : m.all p = true) (a : Nat) :
    (memDrop m a).all p = true := by
  induction m with
  | nil => rfl
  | cons c m ih =>
    obtain ⟨k, x⟩ := c
    simp only [List.all_cons, Bool.and_eq_true] at h
    simp only [memDrop]
    split
    · exact h.2
    · simp only [List.all_cons, Bool.and_eq_true]; exact ⟨h.1, ih h.2⟩

theorem memWf_rising {cold : Nat → Word} {size : Nat} {m : WordMem} (h : memWf cold size m = true) :
    memRising 0 m = true := by
  simp only [memWf, Bool.and_eq_true] at h
  exact h.1

/-- The empty memory, what reset leaves, is in canonical form. -/
theorem memWf_nil (cold : Nat → Word) (size : Nat) : memWf cold size [] = true := rfl

/-- A write below the memory's size keeps the canonical form. -/
theorem memWf_memWrite {cold : Nat → Word} {size : Nat} {m : WordMem} (h : memWf cold size m = true) {a : Nat}
    (ha : a < size) (w : Word) : memWf cold size (memWrite cold m a w) = true := by
  have hr := memWf_rising h
  simp only [memWf, Bool.and_eq_true] at h ⊢
  refine ⟨memRising_memWrite cold hr a w, ?_⟩
  unfold memWrite
  split
  · exact memDrop_all h.2 a
  · next hw => exact memPut_all h.2 a w (by simp [ha, hw])

/-- A run of writes below the memory's size keeps the canonical form. -/
theorem memWf_memWriteFrom {cold : Nat → Word} {size : Nat} (ws : List Word) {m : WordMem}
    (h : memWf cold size m = true) {a : Nat} (ha : a + ws.length ≤ size) :
    memWf cold size (memWriteFrom cold m a ws) = true := by
  induction ws generalizing m a with
  | nil => exact h
  | cons w ws ih =>
    simp only [List.length_cons] at ha
    exact ih (memWf_memWrite h (by omega) w) (by omega)

/-- Reads after a run of writes: the written words where they were written, the old words elsewhere. -/
theorem memRead_memWriteFrom (cold : Nat → Word) (ws : List Word) {m : WordMem} (h : memRising 0 m = true)
    (a b : Nat) :
    memRead cold (memWriteFrom cold m a ws) b =
      if a ≤ b ∧ b < a + ws.length then ws.getD (b - a) 0 else memRead cold m b := by
  induction ws generalizing m a with
  | nil => simp only [memWriteFrom, List.length_nil]; rw [if_neg (by omega)]
  | cons w ws ih =>
    simp only [memWriteFrom, ih (memRising_memWrite cold h a w), memRead_memWrite cold h, List.length_cons]
    by_cases hb : b = a
    · subst hb
      rw [if_neg (by omega), if_pos rfl, if_pos (by omega)]
      simp
    · by_cases hin : a + 1 ≤ b ∧ b < a + 1 + ws.length
      · rw [if_pos hin, if_pos (by omega)]
        obtain ⟨k, rfl⟩ : ∃ k, b = a + 1 + k := ⟨b - (a + 1), by omega⟩
        simp [show a + 1 + k - a = k + 1 by omega, show a + 1 + k - (a + 1) = k by omega]
      · rw [if_neg hin, if_neg hb, if_neg (by omega)]

/-- The words written from index 0 on are the words read back. -/
theorem memWords_memWriteFrom (cold : Nat → Word) (ws : List Word) {m : WordMem} (h : memRising 0 m = true) :
    memWords cold (memWriteFrom cold m 0 ws) ws.length = ws := by
  apply List.ext_getElem
  · simp [memWords]
  · intro i h1 h2
    simp only [memWords, List.getElem_map, List.getElem_range, memRead_memWriteFrom cold ws h]
    rw [if_pos ⟨Nat.zero_le _, by omega⟩]
    simp [h2]

end Form

end Sys2Proof.Machine
end

