-- ==== Sys2Proof/Laws/State.lean ====
section
/-! SUPPORT. One lemma per field per update of the state, each true by rfl, so that no proof unfolds a record update. -/

namespace Sys2Proof.Machine

section setV_fields
variable (s : State) (r : VReg) (x : U256)

@[simp] theorem State.setV_vregs : (s.setV r x).vregs = s.vregs.set r.val x r.isLt := rfl
@[simp] theorem State.setV_carry : (s.setV r x).carry = s.carry := rfl
@[simp] theorem State.setV_cmp : (s.setV r x).cmp = s.cmp := rfl
@[simp] theorem State.setV_scalar : (s.setV r x).scalar = s.scalar := rfl
@[simp] theorem State.setV_approx : (s.setV r x).approx = s.approx := rfl
@[simp] theorem State.setV_sched : (s.setV r x).sched = s.sched := rfl
@[simp] theorem State.setV_warn : (s.setV r x).warn = s.warn := rfl
@[simp] theorem State.setV_err : (s.setV r x).err = s.err := rfl
@[simp] theorem State.setV_errinfo : (s.setV r x).errinfo = s.errinfo := rfl
@[simp] theorem State.setV_context : (s.setV r x).context = s.context := rfl
@[simp] theorem State.setV_period : (s.setV r x).period = s.period := rfl
@[simp] theorem State.setV_ctxValid : (s.setV r x).ctxValid = s.ctxValid := rfl
@[simp] theorem State.setV_batchB : (s.setV r x).batchB = s.batchB := rfl
@[simp] theorem State.setV_rngSeed : (s.setV r x).rngSeed = s.rngSeed := rfl
@[simp] theorem State.setV_batches : (s.setV r x).batches = s.batches := rfl
@[simp] theorem State.setV_bestLen : (s.setV r x).bestLen = s.bestLen := rfl
@[simp] theorem State.setV_bestProof : (s.setV r x).bestProof = s.bestProof := rfl
@[simp] theorem State.setV_cand : (s.setV r x).cand = s.cand := rfl
@[simp] theorem State.setV_bestIdx : (s.setV r x).bestIdx = s.bestIdx := rfl
@[simp] theorem State.setV_lanes : (s.setV r x).lanes = s.lanes := rfl
@[simp] theorem State.setV_hostRng : (s.setV r x).hostRng = s.hostRng := rfl
@[simp] theorem State.setV_deadline : (s.setV r x).deadline = s.deadline := rfl
@[simp] theorem State.setV_phase : (s.setV r x).phase = s.phase := rfl
@[simp] theorem State.setV_inputs : (s.setV r x).inputs = s.inputs := rfl
@[simp] theorem State.setV_now : (s.setV r x).now = s.now := rfl
@[simp] theorem State.setV_rdata : (s.setV r x).rdata = s.rdata := rfl
@[simp] theorem State.setV_resets : (s.setV r x).resets = s.resets := rfl
@[simp] theorem State.setV_batchSteps : (s.setV r x).batchSteps = s.batchSteps := rfl

end setV_fields

section setCarry_fields
variable (s : State) (c : Bool)

@[simp] theorem State.setCarry_vregs : (s.setCarry c).vregs = s.vregs := rfl
@[simp] theorem State.setCarry_carry : (s.setCarry c).carry = c := rfl
@[simp] theorem State.setCarry_cmp : (s.setCarry c).cmp = s.cmp := rfl
@[simp] theorem State.setCarry_scalar : (s.setCarry c).scalar = s.scalar := rfl
@[simp] theorem State.setCarry_approx : (s.setCarry c).approx = s.approx := rfl
@[simp] theorem State.setCarry_sched : (s.setCarry c).sched = s.sched := rfl
@[simp] theorem State.setCarry_warn : (s.setCarry c).warn = s.warn := rfl
@[simp] theorem State.setCarry_err : (s.setCarry c).err = s.err := rfl
@[simp] theorem State.setCarry_errinfo : (s.setCarry c).errinfo = s.errinfo := rfl
@[simp] theorem State.setCarry_context : (s.setCarry c).context = s.context := rfl
@[simp] theorem State.setCarry_period : (s.setCarry c).period = s.period := rfl
@[simp] theorem State.setCarry_ctxValid : (s.setCarry c).ctxValid = s.ctxValid := rfl
@[simp] theorem State.setCarry_batchB : (s.setCarry c).batchB = s.batchB := rfl
@[simp] theorem State.setCarry_rngSeed : (s.setCarry c).rngSeed = s.rngSeed := rfl
@[simp] theorem State.setCarry_batches : (s.setCarry c).batches = s.batches := rfl
@[simp] theorem State.setCarry_bestLen : (s.setCarry c).bestLen = s.bestLen := rfl
@[simp] theorem State.setCarry_bestProof : (s.setCarry c).bestProof = s.bestProof := rfl
@[simp] theorem State.setCarry_cand : (s.setCarry c).cand = s.cand := rfl
@[simp] theorem State.setCarry_bestIdx : (s.setCarry c).bestIdx = s.bestIdx := rfl
@[simp] theorem State.setCarry_lanes : (s.setCarry c).lanes = s.lanes := rfl
@[simp] theorem State.setCarry_hostRng : (s.setCarry c).hostRng = s.hostRng := rfl
@[simp] theorem State.setCarry_deadline : (s.setCarry c).deadline = s.deadline := rfl
@[simp] theorem State.setCarry_phase : (s.setCarry c).phase = s.phase := rfl
@[simp] theorem State.setCarry_inputs : (s.setCarry c).inputs = s.inputs := rfl
@[simp] theorem State.setCarry_now : (s.setCarry c).now = s.now := rfl
@[simp] theorem State.setCarry_rdata : (s.setCarry c).rdata = s.rdata := rfl
@[simp] theorem State.setCarry_resets : (s.setCarry c).resets = s.resets := rfl
@[simp] theorem State.setCarry_batchSteps : (s.setCarry c).batchSteps = s.batchSteps := rfl

end setCarry_fields

section setCmp_fields
variable (s : State) (r : Cmp)

@[simp] theorem State.setCmp_vregs : (s.setCmp r).vregs = s.vregs := rfl
@[simp] theorem State.setCmp_carry : (s.setCmp r).carry = s.carry := rfl
@[simp] theorem State.setCmp_cmp : (s.setCmp r).cmp = r := rfl
@[simp] theorem State.setCmp_scalar : (s.setCmp r).scalar = s.scalar := rfl
@[simp] theorem State.setCmp_approx : (s.setCmp r).approx = s.approx := rfl
@[simp] theorem State.setCmp_sched : (s.setCmp r).sched = s.sched := rfl
@[simp] theorem State.setCmp_warn : (s.setCmp r).warn = s.warn := rfl
@[simp] theorem State.setCmp_err : (s.setCmp r).err = s.err := rfl
@[simp] theorem State.setCmp_errinfo : (s.setCmp r).errinfo = s.errinfo := rfl
@[simp] theorem State.setCmp_context : (s.setCmp r).context = s.context := rfl
@[simp] theorem State.setCmp_period : (s.setCmp r).period = s.period := rfl
@[simp] theorem State.setCmp_ctxValid : (s.setCmp r).ctxValid = s.ctxValid := rfl
@[simp] theorem State.setCmp_batchB : (s.setCmp r).batchB = s.batchB := rfl
@[simp] theorem State.setCmp_rngSeed : (s.setCmp r).rngSeed = s.rngSeed := rfl
@[simp] theorem State.setCmp_batches : (s.setCmp r).batches = s.batches := rfl
@[simp] theorem State.setCmp_bestLen : (s.setCmp r).bestLen = s.bestLen := rfl
@[simp] theorem State.setCmp_bestProof : (s.setCmp r).bestProof = s.bestProof := rfl
@[simp] theorem State.setCmp_cand : (s.setCmp r).cand = s.cand := rfl
@[simp] theorem State.setCmp_bestIdx : (s.setCmp r).bestIdx = s.bestIdx := rfl
@[simp] theorem State.setCmp_lanes : (s.setCmp r).lanes = s.lanes := rfl
@[simp] theorem State.setCmp_hostRng : (s.setCmp r).hostRng = s.hostRng := rfl
@[simp] theorem State.setCmp_deadline : (s.setCmp r).deadline = s.deadline := rfl
@[simp] theorem State.setCmp_phase : (s.setCmp r).phase = s.phase := rfl
@[simp] theorem State.setCmp_inputs : (s.setCmp r).inputs = s.inputs := rfl
@[simp] theorem State.setCmp_now : (s.setCmp r).now = s.now := rfl
@[simp] theorem State.setCmp_rdata : (s.setCmp r).rdata = s.rdata := rfl
@[simp] theorem State.setCmp_resets : (s.setCmp r).resets = s.resets := rfl
@[simp] theorem State.setCmp_batchSteps : (s.setCmp r).batchSteps = s.batchSteps := rfl

end setCmp_fields

section writeSum_fields
variable (rd : VReg) (r : U256 × Bool) (s : State)

@[simp] theorem writeSum_vregs : (writeSum rd r s).vregs = s.vregs.set rd.val r.1 rd.isLt := rfl
@[simp] theorem writeSum_carry : (writeSum rd r s).carry = r.2 := rfl
@[simp] theorem writeSum_cmp : (writeSum rd r s).cmp = s.cmp := rfl
@[simp] theorem writeSum_scalar : (writeSum rd r s).scalar = s.scalar := rfl
@[simp] theorem writeSum_approx : (writeSum rd r s).approx = s.approx := rfl
@[simp] theorem writeSum_sched : (writeSum rd r s).sched = s.sched := rfl
@[simp] theorem writeSum_warn : (writeSum rd r s).warn = s.warn := rfl
@[simp] theorem writeSum_err : (writeSum rd r s).err = s.err := rfl
@[simp] theorem writeSum_errinfo : (writeSum rd r s).errinfo = s.errinfo := rfl
@[simp] theorem writeSum_context : (writeSum rd r s).context = s.context := rfl
@[simp] theorem writeSum_period : (writeSum rd r s).period = s.period := rfl
@[simp] theorem writeSum_ctxValid : (writeSum rd r s).ctxValid = s.ctxValid := rfl
@[simp] theorem writeSum_batchB : (writeSum rd r s).batchB = s.batchB := rfl
@[simp] theorem writeSum_rngSeed : (writeSum rd r s).rngSeed = s.rngSeed := rfl
@[simp] theorem writeSum_batches : (writeSum rd r s).batches = s.batches := rfl
@[simp] theorem writeSum_bestLen : (writeSum rd r s).bestLen = s.bestLen := rfl
@[simp] theorem writeSum_bestProof : (writeSum rd r s).bestProof = s.bestProof := rfl
@[simp] theorem writeSum_cand : (writeSum rd r s).cand = s.cand := rfl
@[simp] theorem writeSum_bestIdx : (writeSum rd r s).bestIdx = s.bestIdx := rfl
@[simp] theorem writeSum_lanes : (writeSum rd r s).lanes = s.lanes := rfl
@[simp] theorem writeSum_hostRng : (writeSum rd r s).hostRng = s.hostRng := rfl
@[simp] theorem writeSum_deadline : (writeSum rd r s).deadline = s.deadline := rfl
@[simp] theorem writeSum_phase : (writeSum rd r s).phase = s.phase := rfl
@[simp] theorem writeSum_inputs : (writeSum rd r s).inputs = s.inputs := rfl
@[simp] theorem writeSum_now : (writeSum rd r s).now = s.now := rfl
@[simp] theorem writeSum_rdata : (writeSum rd r s).rdata = s.rdata := rfl
@[simp] theorem writeSum_resets : (writeSum rd r s).resets = s.resets := rfl
@[simp] theorem writeSum_batchSteps : (writeSum rd r s).batchSteps = s.batchSteps := rfl

end writeSum_fields

section vapproxWith_fields
variable (cfg : Config) (ra : VReg) (s : State)

@[simp] theorem vapproxWith_vregs : (vapproxWith cfg ra s).vregs = s.vregs := rfl
@[simp] theorem vapproxWith_carry : (vapproxWith cfg ra s).carry = s.carry := rfl
@[simp] theorem vapproxWith_cmp : (vapproxWith cfg ra s).cmp = s.cmp := rfl
@[simp] theorem vapproxWith_scalar : (vapproxWith cfg ra s).scalar = s.scalar := rfl
@[simp] theorem vapproxWith_approx : (vapproxWith cfg ra s).approx = cfg.approxFn (s.v ra) := rfl
@[simp] theorem vapproxWith_sched : (vapproxWith cfg ra s).sched = s.sched := rfl
@[simp] theorem vapproxWith_warn : (vapproxWith cfg ra s).warn = s.warn := rfl
@[simp] theorem vapproxWith_err : (vapproxWith cfg ra s).err = s.err := rfl
@[simp] theorem vapproxWith_errinfo : (vapproxWith cfg ra s).errinfo = s.errinfo := rfl
@[simp] theorem vapproxWith_context : (vapproxWith cfg ra s).context = s.context := rfl
@[simp] theorem vapproxWith_period : (vapproxWith cfg ra s).period = s.period := rfl
@[simp] theorem vapproxWith_ctxValid : (vapproxWith cfg ra s).ctxValid = s.ctxValid := rfl
@[simp] theorem vapproxWith_batchB : (vapproxWith cfg ra s).batchB = s.batchB := rfl
@[simp] theorem vapproxWith_rngSeed : (vapproxWith cfg ra s).rngSeed = s.rngSeed := rfl
@[simp] theorem vapproxWith_batches : (vapproxWith cfg ra s).batches = s.batches := rfl
@[simp] theorem vapproxWith_bestLen : (vapproxWith cfg ra s).bestLen = s.bestLen := rfl
@[simp] theorem vapproxWith_bestProof : (vapproxWith cfg ra s).bestProof = s.bestProof := rfl
@[simp] theorem vapproxWith_cand : (vapproxWith cfg ra s).cand = s.cand := rfl
@[simp] theorem vapproxWith_bestIdx : (vapproxWith cfg ra s).bestIdx = s.bestIdx := rfl
@[simp] theorem vapproxWith_lanes : (vapproxWith cfg ra s).lanes = s.lanes := rfl
@[simp] theorem vapproxWith_hostRng : (vapproxWith cfg ra s).hostRng = s.hostRng := rfl
@[simp] theorem vapproxWith_deadline : (vapproxWith cfg ra s).deadline = s.deadline := rfl
@[simp] theorem vapproxWith_phase : (vapproxWith cfg ra s).phase = s.phase := rfl
@[simp] theorem vapproxWith_inputs : (vapproxWith cfg ra s).inputs = s.inputs := rfl
@[simp] theorem vapproxWith_now : (vapproxWith cfg ra s).now = s.now := rfl
@[simp] theorem vapproxWith_rdata : (vapproxWith cfg ra s).rdata = s.rdata := rfl
@[simp] theorem vapproxWith_resets : (vapproxWith cfg ra s).resets = s.resets := rfl
@[simp] theorem vapproxWith_batchSteps : (vapproxWith cfg ra s).batchSteps = s.batchSteps := rfl

end vapproxWith_fields

section setContext_fields
variable (s : State) (n : Fin 16) (w : Word)

@[simp] theorem State.setContext_vregs : (s.setContext n w).vregs = s.vregs := rfl
@[simp] theorem State.setContext_carry : (s.setContext n w).carry = s.carry := rfl
@[simp] theorem State.setContext_cmp : (s.setContext n w).cmp = s.cmp := rfl
@[simp] theorem State.setContext_scalar : (s.setContext n w).scalar = s.scalar := rfl
@[simp] theorem State.setContext_approx : (s.setContext n w).approx = s.approx := rfl
@[simp] theorem State.setContext_sched : (s.setContext n w).sched = s.sched := rfl
@[simp] theorem State.setContext_warn : (s.setContext n w).warn = s.warn := rfl
@[simp] theorem State.setContext_err : (s.setContext n w).err = s.err := rfl
@[simp] theorem State.setContext_errinfo : (s.setContext n w).errinfo = s.errinfo := rfl
@[simp] theorem State.setContext_context : (s.setContext n w).context = s.context.set n.val w n.isLt := rfl
@[simp] theorem State.setContext_period : (s.setContext n w).period = s.period := rfl
@[simp] theorem State.setContext_ctxValid : (s.setContext n w).ctxValid = s.ctxValid ||| BitVec.twoPow 16 n.val := rfl
@[simp] theorem State.setContext_batchB : (s.setContext n w).batchB = s.batchB := rfl
@[simp] theorem State.setContext_rngSeed : (s.setContext n w).rngSeed = s.rngSeed := rfl
@[simp] theorem State.setContext_batches : (s.setContext n w).batches = s.batches := rfl
@[simp] theorem State.setContext_bestLen : (s.setContext n w).bestLen = s.bestLen := rfl
@[simp] theorem State.setContext_bestProof : (s.setContext n w).bestProof = s.bestProof := rfl
@[simp] theorem State.setContext_cand : (s.setContext n w).cand = s.cand := rfl
@[simp] theorem State.setContext_bestIdx : (s.setContext n w).bestIdx = s.bestIdx := rfl
@[simp] theorem State.setContext_lanes : (s.setContext n w).lanes = s.lanes := rfl
@[simp] theorem State.setContext_hostRng : (s.setContext n w).hostRng = s.hostRng := rfl
@[simp] theorem State.setContext_deadline : (s.setContext n w).deadline = s.deadline := rfl
@[simp] theorem State.setContext_phase : (s.setContext n w).phase = s.phase := rfl
@[simp] theorem State.setContext_inputs : (s.setContext n w).inputs = s.inputs := rfl
@[simp] theorem State.setContext_now : (s.setContext n w).now = s.now := rfl
@[simp] theorem State.setContext_rdata : (s.setContext n w).rdata = s.rdata := rfl
@[simp] theorem State.setContext_resets : (s.setContext n w).resets = s.resets := rfl
@[simp] theorem State.setContext_batchSteps : (s.setContext n w).batchSteps = s.batchSteps := rfl

end setContext_fields

section raiseError_fields
variable (e : ErrorKind) (info : Word) (s : State)

@[simp] theorem raiseError_vregs : (raiseError e info s).vregs = s.vregs := rfl
@[simp] theorem raiseError_carry : (raiseError e info s).carry = s.carry := rfl
@[simp] theorem raiseError_cmp : (raiseError e info s).cmp = s.cmp := rfl
@[simp] theorem raiseError_scalar : (raiseError e info s).scalar = s.scalar := rfl
@[simp] theorem raiseError_approx : (raiseError e info s).approx = s.approx := rfl
@[simp] theorem raiseError_sched : (raiseError e info s).sched = s.sched := rfl
@[simp] theorem raiseError_warn : (raiseError e info s).warn = s.warn := rfl
@[simp] theorem raiseError_err : (raiseError e info s).err = s.err ||| errorBit e := rfl
@[simp] theorem raiseError_errinfo : (raiseError e info s).errinfo = info := rfl
@[simp] theorem raiseError_context : (raiseError e info s).context = s.context := rfl
@[simp] theorem raiseError_period : (raiseError e info s).period = s.period := rfl
@[simp] theorem raiseError_ctxValid : (raiseError e info s).ctxValid = s.ctxValid := rfl
@[simp] theorem raiseError_batchB : (raiseError e info s).batchB = s.batchB := rfl
@[simp] theorem raiseError_rngSeed : (raiseError e info s).rngSeed = s.rngSeed := rfl
@[simp] theorem raiseError_batches : (raiseError e info s).batches = s.batches := rfl
@[simp] theorem raiseError_bestLen : (raiseError e info s).bestLen = s.bestLen := rfl
@[simp] theorem raiseError_bestProof : (raiseError e info s).bestProof = s.bestProof := rfl
@[simp] theorem raiseError_cand : (raiseError e info s).cand = s.cand := rfl
@[simp] theorem raiseError_bestIdx : (raiseError e info s).bestIdx = s.bestIdx := rfl
@[simp] theorem raiseError_lanes : (raiseError e info s).lanes = s.lanes := rfl
@[simp] theorem raiseError_hostRng : (raiseError e info s).hostRng = s.hostRng := rfl
@[simp] theorem raiseError_deadline : (raiseError e info s).deadline = s.deadline := rfl
@[simp] theorem raiseError_phase : (raiseError e info s).phase = s.phase := rfl
@[simp] theorem raiseError_inputs : (raiseError e info s).inputs = s.inputs := rfl
@[simp] theorem raiseError_now : (raiseError e info s).now = s.now := rfl
@[simp] theorem raiseError_rdata : (raiseError e info s).rdata = s.rdata := rfl
@[simp] theorem raiseError_resets : (raiseError e info s).resets = s.resets := rfl
@[simp] theorem raiseError_batchSteps : (raiseError e info s).batchSteps = s.batchSteps := rfl

end raiseError_fields

section clearErrors_fields
variable (w : Word) (s : State)

@[simp] theorem clearErrors_vregs : (clearErrors w s).vregs = s.vregs := rfl
@[simp] theorem clearErrors_carry : (clearErrors w s).carry = s.carry := rfl
@[simp] theorem clearErrors_cmp : (clearErrors w s).cmp = s.cmp := rfl
@[simp] theorem clearErrors_scalar : (clearErrors w s).scalar = s.scalar := rfl
@[simp] theorem clearErrors_approx : (clearErrors w s).approx = s.approx := rfl
@[simp] theorem clearErrors_sched : (clearErrors w s).sched = s.sched := rfl
@[simp] theorem clearErrors_warn : (clearErrors w s).warn = s.warn := rfl
@[simp] theorem clearErrors_err : (clearErrors w s).err = s.err &&& ~~~(w.extractLsb' 0 4) := rfl
@[simp] theorem clearErrors_errinfo : (clearErrors w s).errinfo = s.errinfo := rfl
@[simp] theorem clearErrors_context : (clearErrors w s).context = s.context := rfl
@[simp] theorem clearErrors_period : (clearErrors w s).period = s.period := rfl
@[simp] theorem clearErrors_ctxValid : (clearErrors w s).ctxValid = s.ctxValid := rfl
@[simp] theorem clearErrors_batchB : (clearErrors w s).batchB = s.batchB := rfl
@[simp] theorem clearErrors_rngSeed : (clearErrors w s).rngSeed = s.rngSeed := rfl
@[simp] theorem clearErrors_batches : (clearErrors w s).batches = s.batches := rfl
@[simp] theorem clearErrors_bestLen : (clearErrors w s).bestLen = s.bestLen := rfl
@[simp] theorem clearErrors_bestProof : (clearErrors w s).bestProof = s.bestProof := rfl
@[simp] theorem clearErrors_cand : (clearErrors w s).cand = s.cand := rfl
@[simp] theorem clearErrors_bestIdx : (clearErrors w s).bestIdx = s.bestIdx := rfl
@[simp] theorem clearErrors_lanes : (clearErrors w s).lanes = s.lanes := rfl
@[simp] theorem clearErrors_hostRng : (clearErrors w s).hostRng = s.hostRng := rfl
@[simp] theorem clearErrors_deadline : (clearErrors w s).deadline = s.deadline := rfl
@[simp] theorem clearErrors_phase : (clearErrors w s).phase = s.phase := rfl
@[simp] theorem clearErrors_inputs : (clearErrors w s).inputs = s.inputs := rfl
@[simp] theorem clearErrors_now : (clearErrors w s).now = s.now := rfl
@[simp] theorem clearErrors_rdata : (clearErrors w s).rdata = s.rdata := rfl
@[simp] theorem clearErrors_resets : (clearErrors w s).resets = s.resets := rfl
@[simp] theorem clearErrors_batchSteps : (clearErrors w s).batchSteps = s.batchSteps := rfl

end clearErrors_fields

section writeCand_fields
variable (cfg : Config) (s : State) (i : Nat) (w : Word)

@[simp] theorem writeCand_vregs : (writeCand cfg s i w).vregs = s.vregs := rfl
@[simp] theorem writeCand_carry : (writeCand cfg s i w).carry = s.carry := rfl
@[simp] theorem writeCand_cmp : (writeCand cfg s i w).cmp = s.cmp := rfl
@[simp] theorem writeCand_scalar : (writeCand cfg s i w).scalar = s.scalar := rfl
@[simp] theorem writeCand_approx : (writeCand cfg s i w).approx = s.approx := rfl
@[simp] theorem writeCand_sched : (writeCand cfg s i w).sched = s.sched := rfl
@[simp] theorem writeCand_warn : (writeCand cfg s i w).warn = s.warn := rfl
@[simp] theorem writeCand_err : (writeCand cfg s i w).err = s.err := rfl
@[simp] theorem writeCand_errinfo : (writeCand cfg s i w).errinfo = s.errinfo := rfl
@[simp] theorem writeCand_context : (writeCand cfg s i w).context = s.context := rfl
@[simp] theorem writeCand_period : (writeCand cfg s i w).period = s.period := rfl
@[simp] theorem writeCand_ctxValid : (writeCand cfg s i w).ctxValid = s.ctxValid := rfl
@[simp] theorem writeCand_batchB : (writeCand cfg s i w).batchB = s.batchB := rfl
@[simp] theorem writeCand_rngSeed : (writeCand cfg s i w).rngSeed = s.rngSeed := rfl
@[simp] theorem writeCand_batches : (writeCand cfg s i w).batches = s.batches := rfl
@[simp] theorem writeCand_bestLen : (writeCand cfg s i w).bestLen = s.bestLen := rfl
@[simp] theorem writeCand_bestProof : (writeCand cfg s i w).bestProof = s.bestProof := rfl
@[simp] theorem writeCand_cand : (writeCand cfg s i w).cand = memWrite (coldCand cfg s) s.cand i w := rfl
@[simp] theorem writeCand_bestIdx : (writeCand cfg s i w).bestIdx = s.bestIdx := rfl
@[simp] theorem writeCand_lanes : (writeCand cfg s i w).lanes = s.lanes := rfl
@[simp] theorem writeCand_hostRng : (writeCand cfg s i w).hostRng = s.hostRng := rfl
@[simp] theorem writeCand_deadline : (writeCand cfg s i w).deadline = s.deadline := rfl
@[simp] theorem writeCand_phase : (writeCand cfg s i w).phase = s.phase := rfl
@[simp] theorem writeCand_inputs : (writeCand cfg s i w).inputs = s.inputs := rfl
@[simp] theorem writeCand_now : (writeCand cfg s i w).now = s.now := rfl
@[simp] theorem writeCand_rdata : (writeCand cfg s i w).rdata = s.rdata := rfl
@[simp] theorem writeCand_resets : (writeCand cfg s i w).resets = s.resets := rfl
@[simp] theorem writeCand_batchSteps : (writeCand cfg s i w).batchSteps = s.batchSteps := rfl

end writeCand_fields

section genPerformed_fields
variable (cfg : Config) (s : State)

@[simp] theorem genPerformed_vregs : (genPerformed cfg s).vregs = s.vregs := rfl
@[simp] theorem genPerformed_carry : (genPerformed cfg s).carry = s.carry := rfl
@[simp] theorem genPerformed_cmp : (genPerformed cfg s).cmp = s.cmp := rfl
@[simp] theorem genPerformed_scalar : (genPerformed cfg s).scalar = s.scalar := rfl
@[simp] theorem genPerformed_approx : (genPerformed cfg s).approx = s.approx := rfl
@[simp] theorem genPerformed_sched : (genPerformed cfg s).sched = s.sched := rfl
@[simp] theorem genPerformed_warn : (genPerformed cfg s).warn = s.warn := rfl
@[simp] theorem genPerformed_err : (genPerformed cfg s).err = s.err := rfl
@[simp] theorem genPerformed_errinfo : (genPerformed cfg s).errinfo = s.errinfo := rfl
@[simp] theorem genPerformed_context : (genPerformed cfg s).context = s.context := rfl
@[simp] theorem genPerformed_period : (genPerformed cfg s).period = s.period := rfl
@[simp] theorem genPerformed_ctxValid : (genPerformed cfg s).ctxValid = s.ctxValid := rfl
@[simp] theorem genPerformed_batchB : (genPerformed cfg s).batchB = s.batchB := rfl
@[simp] theorem genPerformed_rngSeed : (genPerformed cfg s).rngSeed = s.rngSeed := rfl
@[simp] theorem genPerformed_batches : (genPerformed cfg s).batches = s.batches := rfl
@[simp] theorem genPerformed_bestLen : (genPerformed cfg s).bestLen = s.bestLen := rfl
@[simp] theorem genPerformed_bestProof : (genPerformed cfg s).bestProof = s.bestProof := rfl
@[simp] theorem genPerformed_cand : (genPerformed cfg s).cand = memWriteFrom (coldCand cfg s) s.cand 0 (generate cfg (maxIndices s.context).toNat s.hostRng).1 := rfl
@[simp] theorem genPerformed_bestIdx : (genPerformed cfg s).bestIdx = s.bestIdx := rfl
@[simp] theorem genPerformed_lanes : (genPerformed cfg s).lanes = s.lanes := rfl
@[simp] theorem genPerformed_hostRng : (genPerformed cfg s).hostRng = (generate cfg (maxIndices s.context).toNat s.hostRng).2 := rfl
@[simp] theorem genPerformed_deadline : (genPerformed cfg s).deadline = s.deadline := rfl
@[simp] theorem genPerformed_phase : (genPerformed cfg s).phase = s.phase := rfl
@[simp] theorem genPerformed_inputs : (genPerformed cfg s).inputs = s.inputs := rfl
@[simp] theorem genPerformed_now : (genPerformed cfg s).now = s.now := rfl
@[simp] theorem genPerformed_rdata : (genPerformed cfg s).rdata = s.rdata := rfl
@[simp] theorem genPerformed_resets : (genPerformed cfg s).resets = s.resets := rfl
@[simp] theorem genPerformed_batchSteps : (genPerformed cfg s).batchSteps = s.batchSteps := rfl

end genPerformed_fields

section startPerformed_fields
variable (cfg : Config) (s : State)

@[simp] theorem startPerformed_vregs : (startPerformed cfg s).vregs = s.vregs := rfl
@[simp] theorem startPerformed_carry : (startPerformed cfg s).carry = s.carry := rfl
@[simp] theorem startPerformed_cmp : (startPerformed cfg s).cmp = s.cmp := rfl
@[simp] theorem startPerformed_scalar : (startPerformed cfg s).scalar = s.scalar := rfl
@[simp] theorem startPerformed_approx : (startPerformed cfg s).approx = s.approx := rfl
@[simp] theorem startPerformed_sched : (startPerformed cfg s).sched = .searching := rfl
@[simp] theorem startPerformed_warn : (startPerformed cfg s).warn = false := rfl
@[simp] theorem startPerformed_err : (startPerformed cfg s).err = s.err := rfl
@[simp] theorem startPerformed_errinfo : (startPerformed cfg s).errinfo = s.errinfo := rfl
@[simp] theorem startPerformed_context : (startPerformed cfg s).context = s.context := rfl
@[simp] theorem startPerformed_period : (startPerformed cfg s).period = s.period := rfl
@[simp] theorem startPerformed_ctxValid : (startPerformed cfg s).ctxValid = s.ctxValid := rfl
@[simp] theorem startPerformed_batchB : (startPerformed cfg s).batchB = s.batchB := rfl
@[simp] theorem startPerformed_rngSeed : (startPerformed cfg s).rngSeed = s.rngSeed := rfl
@[simp] theorem startPerformed_batches : (startPerformed cfg s).batches = 0 := rfl
@[simp] theorem startPerformed_bestLen : (startPerformed cfg s).bestLen = 0 := rfl
@[simp] theorem startPerformed_bestProof : (startPerformed cfg s).bestProof = ones256 := rfl
@[simp] theorem startPerformed_cand : (startPerformed cfg s).cand = s.cand := rfl
@[simp] theorem startPerformed_bestIdx : (startPerformed cfg s).bestIdx = s.bestIdx := rfl
@[simp] theorem startPerformed_lanes : (startPerformed cfg s).lanes = s.lanes.mapIdx fun l lane => { lane with rng := cfg.rngInit s.rngSeed l } := rfl
@[simp] theorem startPerformed_hostRng : (startPerformed cfg s).hostRng = s.hostRng := rfl
@[simp] theorem startPerformed_deadline : (startPerformed cfg s).deadline = deadlineOf cfg s.context := rfl
@[simp] theorem startPerformed_phase : (startPerformed cfg s).phase = .batch := rfl
@[simp] theorem startPerformed_inputs : (startPerformed cfg s).inputs = s.inputs := rfl
@[simp] theorem startPerformed_now : (startPerformed cfg s).now = s.now := rfl
@[simp] theorem startPerformed_rdata : (startPerformed cfg s).rdata = s.rdata := rfl
@[simp] theorem startPerformed_resets : (startPerformed cfg s).resets = s.resets := rfl
@[simp] theorem startPerformed_batchSteps : (startPerformed cfg s).batchSteps = s.batchSteps := rfl

end startPerformed_fields

section resetEvent_fields
variable (cfg : Config) (s : State)

@[simp] theorem resetEvent_carry : (resetEvent cfg s).carry = false := rfl
@[simp] theorem resetEvent_cmp : (resetEvent cfg s).cmp = .equal := rfl
@[simp] theorem resetEvent_sched : (resetEvent cfg s).sched = .idle := rfl
@[simp] theorem resetEvent_warn : (resetEvent cfg s).warn = false := rfl
@[simp] theorem resetEvent_err : (resetEvent cfg s).err = 0 := rfl
@[simp] theorem resetEvent_errinfo : (resetEvent cfg s).errinfo = 0 := rfl
@[simp] theorem resetEvent_ctxValid : (resetEvent cfg s).ctxValid = 0 := rfl
@[simp] theorem resetEvent_batchB : (resetEvent cfg s).batchB = 1 := rfl
@[simp] theorem resetEvent_rngSeed : (resetEvent cfg s).rngSeed = 0 := rfl
@[simp] theorem resetEvent_batches : (resetEvent cfg s).batches = 0 := rfl
@[simp] theorem resetEvent_bestLen : (resetEvent cfg s).bestLen = 0 := rfl
@[simp] theorem resetEvent_bestProof : (resetEvent cfg s).bestProof = ones256 := rfl
@[simp] theorem resetEvent_cand : (resetEvent cfg s).cand = [] := rfl
@[simp] theorem resetEvent_bestIdx : (resetEvent cfg s).bestIdx = [] := rfl
@[simp] theorem resetEvent_lanes : (resetEvent cfg s).lanes = (List.range cfg.bMax).map (coldLane (cfg.cold (s.resets + 1))) := rfl
@[simp] theorem resetEvent_hostRng : (resetEvent cfg s).hostRng = cfg.rngInit 0 cfg.bMax := rfl
@[simp] theorem resetEvent_inputs : (resetEvent cfg s).inputs = s.inputs := rfl
@[simp] theorem resetEvent_now : (resetEvent cfg s).now = s.now := rfl
@[simp] theorem resetEvent_rdata : (resetEvent cfg s).rdata = s.rdata := rfl
@[simp] theorem resetEvent_resets : (resetEvent cfg s).resets = s.resets + 1 := rfl
@[simp] theorem resetEvent_batchSteps : (resetEvent cfg s).batchSteps = s.batchSteps := rfl

end resetEvent_fields

section presentCommand_fields
variable (w : Word) (s : State)

@[simp] theorem presentCommand_vregs : (presentCommand w s).vregs = s.vregs := rfl
@[simp] theorem presentCommand_carry : (presentCommand w s).carry = s.carry := rfl
@[simp] theorem presentCommand_cmp : (presentCommand w s).cmp = s.cmp := rfl
@[simp] theorem presentCommand_scalar : (presentCommand w s).scalar = s.scalar := rfl
@[simp] theorem presentCommand_approx : (presentCommand w s).approx = s.approx := rfl
@[simp] theorem presentCommand_sched : (presentCommand w s).sched = s.sched := rfl
@[simp] theorem presentCommand_warn : (presentCommand w s).warn = s.warn := rfl
@[simp] theorem presentCommand_err : (presentCommand w s).err = s.err := rfl
@[simp] theorem presentCommand_errinfo : (presentCommand w s).errinfo = s.errinfo := rfl
@[simp] theorem presentCommand_context : (presentCommand w s).context = s.context := rfl
@[simp] theorem presentCommand_period : (presentCommand w s).period = s.period := rfl
@[simp] theorem presentCommand_ctxValid : (presentCommand w s).ctxValid = s.ctxValid := rfl
@[simp] theorem presentCommand_batchB : (presentCommand w s).batchB = s.batchB := rfl
@[simp] theorem presentCommand_rngSeed : (presentCommand w s).rngSeed = s.rngSeed := rfl
@[simp] theorem presentCommand_batches : (presentCommand w s).batches = s.batches := rfl
@[simp] theorem presentCommand_bestLen : (presentCommand w s).bestLen = s.bestLen := rfl
@[simp] theorem presentCommand_bestProof : (presentCommand w s).bestProof = s.bestProof := rfl
@[simp] theorem presentCommand_cand : (presentCommand w s).cand = s.cand := rfl
@[simp] theorem presentCommand_bestIdx : (presentCommand w s).bestIdx = s.bestIdx := rfl
@[simp] theorem presentCommand_lanes : (presentCommand w s).lanes = s.lanes := rfl
@[simp] theorem presentCommand_hostRng : (presentCommand w s).hostRng = s.hostRng := rfl
@[simp] theorem presentCommand_deadline : (presentCommand w s).deadline = s.deadline := rfl
@[simp] theorem presentCommand_phase : (presentCommand w s).phase = s.phase := rfl
@[simp] theorem presentCommand_inputs : (presentCommand w s).inputs = .host (.wr cmdAddr w) :: s.inputs := rfl
@[simp] theorem presentCommand_now : (presentCommand w s).now = s.now := rfl
@[simp] theorem presentCommand_rdata : (presentCommand w s).rdata = s.rdata := rfl
@[simp] theorem presentCommand_resets : (presentCommand w s).resets = s.resets := rfl
@[simp] theorem presentCommand_batchSteps : (presentCommand w s).batchSteps = s.batchSteps := rfl

end presentCommand_fields

/-! ### Reading vector registers back -/

@[simp] theorem State.v_setV (s : State) (rd r : VReg) (x : U256) :
    (s.setV rd x).v r = if rd = r then x else s.v r := by
  simp only [State.v, State.setV, Vector.get_eq_getElem, Vector.getElem_set, Fin.ext_iff]

theorem State.v_setV_self (s : State) (rd : VReg) (x : U256) : (s.setV rd x).v rd = x := by simp

theorem State.v_setV_ne (s : State) {rd r : VReg} (h : rd ≠ r) (x : U256) : (s.setV rd x).v r = s.v r := by
  simp [h]

end Sys2Proof.Machine
end

