-- ==== Sys2Proof/Laws/Ops.lean ====
section
/-! SUPPORT. One lemma per shared operation that says once everything it can do; proofs cite these instead of unfolding
the operation. -/

namespace Sys2Proof.Machine

/-- A command with a context check either performs or records `CFG` (R101). -/
theorem checked_next {cfg : Config} {i : Instr} {s performed t : State}
    (h : checked cfg i s performed = .next t) :
    (contextOk cfg i s = true ∧ t = performed) ∨
    (contextOk cfg i s = false ∧ t = raiseError .cfg (cfgInfo cfg i s) s) := by
  unfold checked at h
  split at h
  · next hc => exact .inl ⟨hc, by injection h with h; exact h.symm⟩
  · next hc => exact .inr ⟨by simpa using hc, by injection h with h; exact h.symm⟩

theorem checked_of_ok {cfg : Config} {i : Instr} {s performed : State} (h : contextOk cfg i s = true) :
    checked cfg i s performed = .next performed := by simp [checked, h]

theorem checked_of_not_ok {cfg : Config} {i : Instr} {s performed : State} (h : contextOk cfg i s = false) :
    checked cfg i s performed = .next (raiseError .cfg (cfgInfo cfg i s) s) := by simp [checked, h]

/-- The context check, said of its two causes (R108). -/
theorem contextOk_iff {cfg : Config} {i : Instr} {s : State} :
    contextOk cfg i s = true ↔ need i &&& ~~~s.ctxValid = 0 ∧ overLimit cfg i s = false := by
  simp [contextOk, missingWords]

/-- A word written to `CMD` either is refused by the decoder, with `ILLCMD`, or runs (R101). -/
theorem runCommand_next {w : Word} {s t : State} (h : runCommand w s = .next t) :
    ((∃ e, decode w = .error e) ∧ t = raiseError .illcmd w s) ∨ (∃ i, decode w = .ok i ∧ exec i s = .next t) := by
  unfold runCommand at h
  split at h
  · next e he => exact .inl ⟨⟨e, he⟩, by injection h with h; exact h.symm⟩
  · next i hi => exact .inr ⟨i, hi, h⟩

/-- What a host write can do (R73): an error and nothing else, a command, or a store. -/
theorem hostWrite_next {cfg : Config} {addr w : Word} {s t : State} (h : hostWrite cfg addr w s = .next t) :
    t = raiseError .access addr s ∨
    (s.sched = .searching ∧ t = raiseError .busy addr s) ∨
    (s.sched ≠ .searching ∧ resolve cfg addr = some (.ctrl .cmd) ∧ runCommand w s = .next t) ∨
    (∃ tgt, resolve cfg addr = some tgt ∧ tgt ≠ .ctrl .cmd ∧ tgt.readOnly = false ∧
      (s.sched ≠ .searching ∨ tgt = .ctrl .err) ∧ t = storeTarget cfg w s tgt) := by
  unfold hostWrite at h
  split at h
  · injection h with h; exact .inl h.symm
  · next tgt ht =>
    split at h
    · injection h with h; exact .inl h.symm
    · next hro =>
      have hro : tgt.readOnly = false := by simpa using hro
      split at h
      · next hb => injection h with h; exact .inr (.inl ⟨hb.1, h.symm⟩)
      · next hb =>
        have hb : s.sched ≠ .searching ∨ tgt = .ctrl .err := by
          by_cases hs : s.sched = .searching
          · exact .inr (by simpa [hs] using hb)
          · exact .inl hs
        unfold performWrite at h
        split at h
        · next hc =>
          subst hc
          exact .inr (.inr (.inl ⟨by simpa using hb, ht, h⟩))
        · next hc =>
          injection h with h
          exact .inr (.inr (.inr ⟨tgt, ht, hc, hro, hb, h.symm⟩))

/-- What the scheduler's turn can do (R225). -/
theorem schedulerStep_cases (cfg : Config) (s : State) :
    (s.sched = .searching ∧ s.phase = .batch ∧ schedulerStep cfg s = batchStep cfg s) ∨
    (s.sched = .searching ∧ s.phase = .check ∧ schedulerStep cfg s = checkStep s) ∨
    (s.sched ≠ .searching ∧ schedulerStep cfg s = s) := by
  unfold schedulerStep
  split <;> simp_all

/-- What one step can do: one of these for the event at the head of the queue (R14). -/
theorem takeStep_next {cfg : Config} {s t : State} (h : takeStep cfg s = .next t) :
    (s.inputs = [] ∧ t = schedulerStep cfg s) ∨
    (∃ rest a, s.inputs = .host (.rd a) :: rest ∧ t = hostRead cfg a { s with inputs := rest }) ∨
    (∃ rest a w, s.inputs = .host (.wr a w) :: rest ∧ hostWrite cfg a w { s with inputs := rest } = .next t) ∨
    (∃ rest, s.inputs = .scheduler :: rest ∧ t = schedulerStep cfg { s with inputs := rest }) ∨
    (∃ rest c, s.inputs = .clock c :: rest ∧ t = advanceClock c { s with inputs := rest }) ∨
    (∃ rest, s.inputs = .reset :: rest ∧ t = resetEvent cfg { s with inputs := rest }) := by
  unfold takeStep at h
  split at h
  · next hi => injection h with h; exact .inl ⟨hi, h.symm⟩
  · next e rest hi =>
    unfold react at h
    split at h
    · next a => injection h with h; exact .inr (.inl ⟨rest, a, hi, h.symm⟩)
    · next a w => exact .inr (.inr (.inl ⟨rest, a, w, hi, h⟩))
    · injection h with h; exact .inr (.inr (.inr (.inl ⟨rest, hi, h.symm⟩)))
    · next c => injection h with h; exact .inr (.inr (.inr (.inr (.inl ⟨rest, c, hi, h.symm⟩))))
    · injection h with h; exact .inr (.inr (.inr (.inr (.inr ⟨rest, hi, h.symm⟩))))

/-- The batch-local best is a lane that ran, and no lane that ran has a lesser proof (R227). -/
theorem batchBest_mem {run : List Lane} {l : Lane} (h : batchBest run = some l) :
    l ∈ run ∧ ∀ m ∈ run, cmp256 l.proof m.proof ≠ .greater := by
  refine ⟨List.mem_of_find?_eq_some h, ?_⟩
  have := List.find?_some h
  simpa using this

/-- What the reduction can do: nothing, or the merge of a lane that ran and is strictly Less (R227). -/
theorem reduceBatch_cases (cfg : Config) (run : List Lane) (s : State) :
    reduceBatch cfg run s = s ∨
    ∃ l ∈ run, cmp256 l.proof s.bestProof = .less ∧
      reduceBatch cfg run s =
        { s with
          bestProof := l.proof
          bestLen := maxIndices s.context
          bestIdx := memWriteFrom (coldBestIdx cfg s) s.bestIdx 0 l.cand } := by
  unfold reduceBatch
  split
  · exact .inl rfl
  · next l hl =>
    unfold mergeBest
    split
    · next hc => exact .inr ⟨l, (batchBest_mem hl).1, hc, rfl⟩
    · exact .inl rfl

/-- The memories of the machine right after reset are in canonical form. -/
theorem reset_memories_wf :
    memWf (coldCand Config.machine State.reset) Config.machine.nidxMax State.reset.cand = true ∧
    memWf (coldBestIdx Config.machine State.reset) Config.machine.nidxMax State.reset.bestIdx = true := ⟨rfl, rfl⟩

/-- A new time is taken, or it would take the time back and is ignored (R58, log entry 10). -/
theorem advanceClock_cases (c : U64) (s : State) :
    (s.now ≤ c ∧ advanceClock c s = { s with now := c }) ∨ (c < s.now ∧ advanceClock c s = s) := by
  unfold advanceClock
  split
  · next h => exact .inl ⟨h, rfl⟩
  · next h => exact .inr ⟨BitVec.not_le.mp h, rfl⟩

/-- `B_MAX` is within the range of R5. -/
theorem bMax_range (cfg : Config) : 1 ≤ cfg.bMax ∧ cfg.bMax ≤ 2 ^ 32 - 1 := by
  have := cfg.lanesLessOne.isLt
  unfold Config.bMax
  omega

/-- `NIDX_MAX` is within the range of R6. -/
theorem nidxMax_range (cfg : Config) : 1 ≤ cfg.nidxMax ∧ cfg.nidxMax ≤ 429496729 := by
  have := cfg.indicesLessOne.isLt
  unfold Config.nidxMax
  omega

/-- An increment is within the range of R9. -/
theorem draw_range (cfg : Config) (r : RngState) : 1 ≤ (draw cfg r).2 ∧ (draw cfg r).2 ≤ 10 := by
  have := (cfg.rngStep r).2.isLt
  simp only [draw]
  omega

/-- `generate(n, id)` gives `n` words (R212). -/
theorem generateFrom_length (cfg : Config) (n cursor : Nat) (r : RngState) :
    (generateFrom cfg n cursor r).1.length = n := by
  induction n generalizing cursor r with
  | zero => rfl
  | succ n ih => simp [generateFrom, ih]

end Sys2Proof.Machine
end

