-- ==== Sys2Proof/Laws/PerInstr.lean ====
section
/-! SUPPORT. Facts about every command, one lemma per constructor of `Instr`. -/

namespace Sys2Proof.Laws

/-- The encoding of a command has, under the mask of its format, the word of its row in the opcode map (R103, R105):
the opcode at the top and every field it does not use zero. -/
def EncodingInRow.Statement (i : Instr) : Prop := encode i &&& i.format.mask = opcode i ++ (0#24)

/-- A command word in two parts: the opcode with the must-be-zero field, and the three register fields. -/
theorem packWord_split (op : BitVec 8) (rd ra rb : VReg) :
    packWord op rd ra rb = (op ++ 0#12) ++
      ((BitVec.ofFin rd : BitVec 4) ++ (BitVec.ofFin ra : BitVec 4) ++ (BitVec.ofFin rb : BitVec 4) : BitVec 12) := by
  unfold packWord
  generalize (BitVec.ofFin rd : BitVec 4) = x
  generalize (BitVec.ofFin ra : BitVec 4) = y
  generalize (BitVec.ofFin rb : BitVec 4) = z
  ext j hj
  simp only [BitVec.getElem_append]
  by_cases h4 : j < 4
  · simp [h4, show j < 12 by omega]
  · by_cases h8 : j < 8
    · simp [h4, show j - 4 < 4 by omega, show j < 12 by omega]
    · by_cases h12 : j < 12
      · simp [h4, h12, show ¬ j - 4 < 4 by omega, show j - 4 - 4 < 4 by omega]
      · simp [h4, h12, show ¬ j - 4 < 4 by omega, show ¬ j - 4 - 4 < 4 by omega,
          show j - 4 - 4 - 4 = j - 12 by omega]

/-- Under the mask of format DAB the register fields are gone. -/
theorem packWord_masked_DAB (op : BitVec 8) (rd ra rb : VReg) :
    packWord op rd ra rb &&& Format.mask .DAB = (op ++ 0#12) ++ 0#12 := by
  rw [packWord_split, show Format.mask .DAB = BitVec.allOnes 20 ++ 0#12 by decide, BitVec.and_append,
    BitVec.and_allOnes, BitVec.and_zero]

theorem EncodingInRow.nop : EncodingInRow.Statement .nop := by unfold EncodingInRow.Statement; decide
theorem EncodingInRow.vzero (rd : VReg) : EncodingInRow.Statement (.vzero rd) := by
  unfold EncodingInRow.Statement; revert rd; decide
theorem EncodingInRow.vones (rd : VReg) : EncodingInRow.Statement (.vones rd) := by
  unfold EncodingInRow.Statement; revert rd; decide
theorem EncodingInRow.vcopy (rd ra : VReg) : EncodingInRow.Statement (.vcopy rd ra) := by
  unfold EncodingInRow.Statement; revert rd ra; decide
theorem EncodingInRow.vadd (rd ra rb : VReg) : EncodingInRow.Statement (.vadd rd ra rb) :=
  (packWord_masked_DAB 0x04#8 rd ra rb).trans (by decide : 0x04#8 ++ 0#12 ++ 0#12 = 0x04#8 ++ 0#24)
theorem EncodingInRow.vadds (rd ra : VReg) : EncodingInRow.Statement (.vadds rd ra) := by
  unfold EncodingInRow.Statement; revert rd ra; decide
theorem EncodingInRow.vmul (rd ra rb : VReg) : EncodingInRow.Statement (.vmul rd ra rb) :=
  (packWord_masked_DAB 0x06#8 rd ra rb).trans (by decide : 0x06#8 ++ 0#12 ++ 0#12 = 0x06#8 ++ 0#24)
theorem EncodingInRow.vxor (rd ra rb : VReg) : EncodingInRow.Statement (.vxor rd ra rb) :=
  (packWord_masked_DAB 0x07#8 rd ra rb).trans (by decide : 0x07#8 ++ 0#12 ++ 0#12 = 0x07#8 ++ 0#24)
theorem EncodingInRow.vcmp (ra rb : VReg) : EncodingInRow.Statement (.vcmp ra rb) := by
  unfold EncodingInRow.Statement; revert ra rb; decide
theorem EncodingInRow.vapprox (ra : VReg) : EncodingInRow.Statement (.vapprox ra) := by
  unfold EncodingInRow.Statement; revert ra; decide
theorem EncodingInRow.hstep (rd ra : VReg) : EncodingInRow.Statement (.hstep rd ra) := by
  unfold EncodingInRow.Statement; revert rd ra; decide
theorem EncodingInRow.seed (rd : VReg) : EncodingInRow.Statement (.seed rd) := by
  unfold EncodingInRow.Statement; revert rd; decide
theorem EncodingInRow.eval (rd : VReg) : EncodingInRow.Statement (.eval rd) := by
  unfold EncodingInRow.Statement; revert rd; decide
theorem EncodingInRow.combine (rd : VReg) : EncodingInRow.Statement (.combine rd) := by
  unfold EncodingInRow.Statement; revert rd; decide
theorem EncodingInRow.gen : EncodingInRow.Statement .gen := by unfold EncodingInRow.Statement; decide
theorem EncodingInRow.start : EncodingInRow.Statement .start := by unfold EncodingInRow.Statement; decide

end Sys2Proof.Laws
end

