-- ==== Sys2Proof/Tests/Slice0.lean ====
section
/-! SUPPORT. The model's own tests. Expected values come from 95_test_vectors.md (the id of the vector is given) or are
written out by hand from the rule that is named. The second half gives, for each obligation that has hypotheses, a concrete
state that meets all of them together. -/

namespace Sys2Proof.Tests

open Sys2Proof Sys2Proof.Machine

/-! ### Decoding: words written out bit by bit from 30_encoding.md rules R100 and R105 -/

/-- What the decoder accepts. -/
def dec (w : Word) : Option Instr := (decode w).toOption

theorem test_decode_nop : dec 0b00000000_000000000000_0000_0000_0000#32 = some .nop := by decide
theorem test_decode_vzero : dec 0b00000001_000000000000_0101_0000_0000#32 = some (.vzero 5) := by decide
theorem test_decode_vones : dec 0b00000010_000000000000_0111_0000_0000#32 = some (.vones 7) := by decide
theorem test_decode_vcopy : dec 0b00000011_000000000000_0010_0001_0000#32 = some (.vcopy 2 1) := by decide
theorem test_decode_vadd : dec 0b00000100_000000000000_0011_0001_0010#32 = some (.vadd 3 1 2) := by decide
theorem test_decode_vadds : dec 0b00000101_000000000000_0110_0011_0000#32 = some (.vadds 6 3) := by decide
theorem test_decode_vmul : dec 0b00000110_000000000000_0101_0001_0010#32 = some (.vmul 5 1 2) := by decide
theorem test_decode_vxor : dec 0b00000111_000000000000_0100_0001_0010#32 = some (.vxor 4 1 2) := by decide
theorem test_decode_vcmp : dec 0b00001000_000000000000_0000_0001_0010#32 = some (.vcmp 1 2) := by decide
theorem test_decode_vapprox : dec 0b00001001_000000000000_0000_0111_0000#32 = some (.vapprox 7) := by decide
theorem test_decode_hstep : dec 0b00010000_000000000000_0001_1111_0000#32 = some (.hstep 1 15) := by decide
theorem test_decode_seed : dec 0b00100000_000000000000_1111_0000_0000#32 = some (.seed 15) := by decide
theorem test_decode_eval : dec 0b00100001_000000000000_0010_0000_0000#32 = some (.eval 2) := by decide
theorem test_decode_combine : dec 0b00100010_000000000000_1001_0000_0000#32 = some (.combine 9) := by decide
theorem test_decode_gen : dec 0b00110000_000000000000_0000_0000_0000#32 = some .gen := by decide
theorem test_decode_start : dec 0b01000000_000000000000_0000_0000_0000#32 = some .start := by decide

/-- The host's view of the decoder, on a word of the table. -/
theorem test_decodeTableWord : decodeTableWord 32 0x10000110 = some (.hstep 1 1) := by decide

/-- The smoke test of WellFormed: ill-formed words, one for each check (T-ENC-8 to T-ENC-14), and one for each format's
unused field. -/
theorem test_illFormed_refused :
    [0x0A000000#32, 0x04100312#32, 0x04001312#32, 0x04800312#32, 0x01000012#32, 0x40000100#32, 0xFFFFFFFF#32,
      0x08000112#32, 0x11000000#32, 0x23000000#32, 0x31000000#32, 0x41000000#32, 0x80000000#32, 0x00000001#32,
      0x03000211#32, 0x05000631#32, 0x09000171#32, 0x09000071#32, 0x10000111#32, 0x20000010#32, 0x30000001#32].all
      (fun w => !wordWellFormed w && (dec w).isNone) = true := by decide

/-- The words that the smoke test does not refuse (T-ENC-1 to T-ENC-7). -/
theorem test_wellFormed_accepted :
    [0x04000312#32, 0x04000FFF#32, 0x08000012#32, 0x09000070#32, 0x10000110#32, 0x22000900#32, 0x00000000#32,
      0x30000000#32, 0x40000000#32].all (fun w => wordWellFormed w && (dec w).isSome) = true := by decide

/-- The encoder writes the words of the programs P1, P2, P5. -/
theorem test_encode_words :
    [Instr.vadd 3 1 2, .vxor 4 1 2, .vmul 5 1 2, .vcmp 1 2, .vadds 6 3, .vones 7, .seed 0, .hstep 1 0, .eval 2,
      .combine 5, .start].map encode =
    [0x04000312#32, 0x07000412#32, 0x06000512#32, 0x08000012#32, 0x05000630#32, 0x02000700#32, 0x20000000#32,
      0x10000100#32, 0x21000200#32, 0x22000500#32, 0x40000000#32] := by decide

/-! ### A configuration and small states -/

/-- The parameters of the vectors: `B_MAX = 4`, `NIDX_MAX = 16`, a margin of half a second. A stream's state is a number
whose decimal digits, the last first, are the increments less one: stream 0 draws `1, 1, 10, 10`, stream 1 draws
`2, 3, 1, 2`, the host stream 4 draws `3, 10, 1, 1`. -/
def testCfg : Config where
  lanesLessOne := 3
  indicesLessOne := 15
  safetyMarginNs := 500000000
  approxFn := fun x => x.setWidth 64
  rngInit := fun _ id => if id = 0 then 9900 else if id = 1 then 1021 else if id = 4 then 92 else 0
  rngStep := fun r => (r / 10, Fin.ofNat 10 r)
  laneFallback := fun _ => false
  cold := fun _ => { word := fun _ => 0, laneCand := fun _ => [], laneWork := fun _ => 0, laneProof := fun _ => 0,
                     laneRng := fun _ => 0, deadline := 0, phaseCheck := false }

/-- The state a step answers, if it answers one. -/
def reached : Host.Outcome State Fault Refusal → Option State
  | .next t => some t
  | .fault _ => none
  | .refused _ => none

/-- The limb `0xFFFFFFFF`. -/
def F : Word := 0xFFFFFFFF#32

/-- The machine after reset, with `v[1]` and `v[2]` given. -/
def withV (a b : List Word) : State := ((State.powerOn testCfg).setV 1 (ofLimbs8 a)).setV 2 (ofLimbs8 b)

/-- `ctxS` of the vectors, with `HASH_STEPS = 1`, `MAX_INDICES = 2`, and the deadline registers of T-SCH-2. -/
def ctxS : Context :=
  #v[0, 0, 0, 0, 0, 0, 1, 2, 0xFFFFF58D, 0xFFFFFFFF, 0xCBC2B3FF, 0x7F7D467A, 0x77359400, 0, 0xFA0A1F00, 0xFFFFFFFF]

/-- `ctxA` of the vectors, with `HASH_STEPS = 1`, `MAX_INDICES = 2`. -/
def ctxA : Context :=
  #v[0x55667788, 0x11223344, 0xDDEEFF00, 0x99AABBCC, 0x89ABCDEF, 0x01234567, 1, 2, 0xFFFFF58D, 0xFFFFFFFF, 0xCBC2B3FF,
    0x7F7D467A, 0, 0, 0, 0]

/-- The machine after reset, with a context written. -/
def withCtx (ctx : Context) : State := { State.powerOn testCfg with context := ctx, ctxValid := 0xFFFF#16 }

/-- The limbs of `v[r]` after a step. -/
def limbsAfter (r : VReg) (o : Host.Outcome State Fault Refusal) : Option (List Word) :=
  (reached o).map fun t => limbs8 (t.v r)

/-! ### The commands -/

/-- T-NOP-1. -/
theorem test_nop : reached (exec .nop (withCtx ctxS)) = some (withCtx ctxS) := by decide

/-- T-CST-1. -/
theorem test_vzero : limbsAfter 1 (exec (.vzero 1) (withV [1, 2, 3, 4, 5, 6, 7, 8] [])) =
    some [0, 0, 0, 0, 0, 0, 0, 0] := by decide

/-- T-CST-2. -/
theorem test_vones : limbsAfter 0 (exec (.vones 0) (withV [] [])) = some [F, F, F, F, F, F, F, F] := by
  decide

/-- T-CPY-1. -/
theorem test_vcopy : limbsAfter 2 (exec (.vcopy 2 1) (withV [1, 2, 3, 4, 5, 6, 7, 8] [])) =
    some [1, 2, 3, 4, 5, 6, 7, 8] := by decide

/-- T-ADD-7, the destination a source too. -/
theorem test_vadd_carry_in_every_limb :
    (reached (exec (.vadd 1 1 2) (withV (List.replicate 8 0x80000000) (List.replicate 8 0x80000000)))).map
      (fun t => (limbs8 (t.v 1), t.carry)) = some ([0, 1, 1, 1, 1, 1, 1, 1], true) := by decide

/-- T-ADD-6: the carry stops in limb 7; `CARRY` is rewritten to 0. -/
theorem test_vadd_no_carry :
    (reached (exec (.vadd 3 1 2) { withV [F, F, F, F, F, F, F, 0] [1] with carry := true })).map
      (fun t => (limbs8 (t.v 3), t.carry)) = some ([0, 0, 0, 0, 0, 0, 0, 1], false) := by decide

/-- T-ADS-1. -/
theorem test_vadds_wraps :
    (reached (exec (.vadds 3 1) { withV [F, F, F, F, F, F, F, F] [] with scalar := F })).map
      (fun t => (limbs8 (t.v 3), t.carry)) = some ([0xFFFFFFFE, 0, 0, 0, 0, 0, 0, 0], true) := by decide

/-- T-ADS-4: `SCALAR` is unsigned. -/
theorem test_vadds_unsigned :
    (reached (exec (.vadds 3 1) { withV [5] [] with scalar := F })).map
      (fun t => (limbs8 (t.v 3), t.carry)) = some ([4, 1, 0, 0, 0, 0, 0, 0], false) := by decide

/-- T-MUL-6, with junk in the high limbs of both sources, which have no effect (T-MUL-10). -/
theorem test_vmul :
    limbsAfter 3 (exec (.vmul 3 1 2)
      (withV [0x89ABCDEF, 0x01234567, 0xDEADBEEF, 0xCAFEBABE, 9, 9, 9, 9]
        [0xFFFFF58D, F, 0xCBC2B3FF, 0x7F7D467A, 1, 2, 3, 4])) =
    some [0x71C727A3, 0x1C71C71C, 0x8F67F097, 0x109782C0, 0xD1E9B051, 0x67CD2081, 0xE5B27E42, 0x6517B4E8] := by
  decide

/-- T-MUL-1: the largest product. -/
theorem test_vmul_largest :
    limbsAfter 3 (exec (.vmul 3 1 2) (withV [F, F, F, F] [F, F, F, F])) =
    some [1, 0, 0, 0, 0xFFFFFFFE, F, F, F] := by decide

/-- T-XOR-3. -/
theorem test_vxor :
    limbsAfter 3 (exec (.vxor 3 1 2) (withV [0x12345678, 0, 0, 0, 0, 0, 0, 0x80000000] [F, F, F, F, F, F, F, F])) =
    some [0xEDCBA987, F, F, F, F, F, F, 0x7FFFFFFF] := by decide

/-- T-CMP-1, and the word that `FLAGS` then reads. -/
theorem test_vcmp_less :
    (reached (exec (.vcmp 1 2) (withV [9, 0, 0, 0, 0, 0, 0, 1] [0, 0, 0, 0, 0, 0, 0, 2]))).map flagsWord =
    some 0x00000002#32 := by decide

/-- T-CMP-2, with `CARRY = 1`. -/
theorem test_vcmp_greater :
    (reached (exec (.vcmp 1 2)
      { withV [0, 0, 0, 0, 0, 0, 0, 0x80000000] [F, F, F, F, F, F, F, 0x7FFFFFFF] with carry := true })).map flagsWord =
    some 0x00000005#32 := by decide

/-- T-APX-1: the result is the parameter's, and only `APPROX` is written. -/
theorem test_vapprox :
    vapproxWith testCfg 1 (withV [1, 2, 3] []) = { withV [1, 2, 3] [] with approx := 0x0000000200000001#64 } := by
  decide

/-- T-HS-6: the carry of step 3 enters limb 4. -/
theorem test_hstep_carry :
    limbsAfter 2 (exec (.hstep 2 1) { withV
      [0x89ABCDEF, 0x01234567, 0xDEADBEEF, 0xCAFEBABE, 0x11111111, 0x22222222, 0x33333333, 0xF0000000] [] with
      context := ctxS, ctxValid := 0x0F00#16 }) =
    some [0x82D838B4, 0x3E93E93E, 0xC29B23CA, 0x009782C0, 0xD1E9B052, 0x67CD2081, 0xE5B27E42, 0x6517B4E8] := by
  decide

/-- T-HS-5, on the function: the carry ripples through all four high limbs. -/
theorem test_hashStep_ripple :
    limbs8 (hashStep (ofLimbs8 [0, 0, 0, 1, 0, 0, 0, 1]) (ofLimbs4 [F, F, F, F])) = [0, 0, 0, 0, 0, 0, 0, 1] := by
  decide

/-- T-SEED-2. -/
theorem test_seed :
    limbsAfter 0 (exec (.seed 0) { withCtx ctxA with scalar := 7, ctxValid := 0x0015#16 }) =
    some [7, 0, 0x55667788, 0x55667788, 0xDDEEFF00, 0xDDEEFF00, 0x89ABCDEF, 0x89ABCDEF] := by decide

/-- T-EVAL-2. -/
theorem test_eval :
    limbsAfter 0 (exec (.eval 0) { withCtx ctxA with scalar := 7, ctxValid := 0x0F55#16 }) =
    some [0xDDEEB5DB, 0xDDEEFF00, 0xBE4BB7D7, 0xA865B5B6, 0x791B9C87, 0x4A00FB4B, 0xFB6CFB23, 0x2A879FD7] := by
  decide

/-- T-EVAL-10: `CFG`, and nothing else. -/
theorem test_eval_missing :
    (reached (exec (.eval 0) { withCtx ctxA with ctxValid := 0x0040#16 })) =
    some { withCtx ctxA with ctxValid := 0x0040#16, err := 1#4, errinfo := 0x21000F15#32 } := by decide

/-- T-COMB-4: order does not matter. -/
theorem test_combine :
    limbsAfter 5 (combineWith testCfg 5 { withCtx ctxA with ctxValid := 0x0FD5#16, cand := [(0, 5), (1, 3)] }) =
    some [0x00001566, 0, 0xA986A800, 0x031BB30A, 0x00000003, 0, 0, 0] := by decide

/-- T-COMB-9: both causes of `CFG` at once. -/
theorem test_combine_limit :
    (reached (combineWith testCfg 0
      { withCtx (ctxA.set 7 17) with ctxValid := 0x00C0#16 })).map (fun t => (t.err, t.errinfo)) =
    some (1#4, 0x22010F15#32) := by decide

/-- T-GEN-1: `CAND[4]` stays. -/
theorem test_gen :
    (reached (genWith testCfg
      { withCtx (ctxS.set 7 4) with ctxValid := 0x0080#16, cand := [(0, 8), (4, 9)] })).map
      (fun t => (memWords (coldCand testCfg t) t.cand 6, t.hostRng)) =
    some ([3, 13, 14, 15, 9, 0], 0) := by decide

/-- T-GEN-5. -/
theorem test_gen_limit :
    (reached (genWith testCfg { withCtx (ctxS.set 7 17) with ctxValid := 0x0080#16 })).map
      (fun t => (t.errinfo, t.cand, t.hostRng)) = some (0x30010000#32, [], 92) := by decide

/-- T-SCH-2. -/
theorem test_start :
    (reached (startWith testCfg (withCtx ctxS))).map
      (fun t => (t.deadline, t.sched, t.phase, t.bestLen, t.lanes.map (·.rng))) =
    some (1400000000, SchedState.searching, Phase.batch, 0, [9900, 1021, 0, 0]) := by decide

/-- T-SCH-9. -/
theorem test_start_missing :
    (reached (exec .start (State.powerOn testCfg))).map (fun t => (t.err, t.errinfo, t.sched)) =
    some (1#4, 0x4000FFFF#32, SchedState.idle) := by decide

/-! ### The scheduler -/

/-- Program P3 right after step 8. -/
def p3 : State := { startPerformed testCfg (withCtx ctxS) with batchB := 2 }

/-- P3 step 12: the first batch; streams 2 and 3 stay. -/
theorem test_first_batch :
    let t := schedulerStep testCfg p3
    limbs8 t.bestProof = [0x00001E97, 0, 0x5C47D400, 0x8187CA8F, 0, 0, 0, 0] ∧ t.bestLen = 2 ∧
    t.bestIdx = [(0, 1), (1, 2)] ∧ t.batches = 1 ∧ t.phase = .check ∧ t.lanes.map (·.rng) = [99, 10, 0, 0] := by
  decide

/-- P3 step 14: the second batch is worse and replaces nothing. -/
theorem test_second_batch :
    let s := { schedulerStep testCfg p3 with phase := .batch }
    let t := schedulerStep testCfg s
    t.bestProof = s.bestProof ∧ t.bestIdx = s.bestIdx ∧ t.batches = 2 ∧
    t.lanes.map (·.cand) = [[10, 20], [1, 3], [], []] := by decide

/-- P3 steps 13 and 15: the check steps. -/
theorem test_check :
    (schedulerStep testCfg { p3 with phase := .check, now := 1000000000 }).sched = .searching ∧
    (schedulerStep testCfg { p3 with phase := .check, now := 1400000000 }).sched = .done := by decide

/-- T-SCH-5: of two equal proofs the lower lane's is taken. -/
theorem test_tie :
    (schedulerStep testCfg { p3 with lanes := p3.lanes.map fun l => { l with rng := 21 } }).bestIdx =
    [(0, 2), (1, 5)] := by decide

/-- T-SCH-4: no index, the zero proof. -/
theorem test_empty_candidate :
    let t := schedulerStep testCfg { p3 with context := ctxS.set 7 0 }
    t.bestProof = 0 ∧ t.bestLen = 0 ∧ t.bestIdx = [] := by decide

/-! ### The bus -/

/-- The machine of `testCfg` with one host access to come. -/
def access (op : HostOp) (s : State) : Option State := reached (takeStep testCfg { s with inputs := [.host op] })

/-- T-MEM-2. -/
theorem test_write_limb :
    (access (.wr 0x00B#32 0x12345678#32) (withV [1, 2, 3, 4, 5, 6, 7, 8] [])).map (fun t => limbs8 (t.v 1)) =
    some [1, 2, 3, 0x12345678, 5, 6, 7, 8] := by decide

/-- T-MEM-4. -/
theorem test_read_unmapped :
    (access (.rd 0xAA#32) (withV [] [])).map (fun t => (t.rdata, t.err, t.errinfo)) = some (0, 8#4, 0xAA#32) := by
  decide

/-- T-MEM-6 and the last word of `CAND`. -/
theorem test_write_cand_edge :
    (access (.wr 0x20000010#32 1) (withV [] [])).map (fun t => (t.cand, t.errinfo)) = some ([], 0x20000010#32) ∧
    (access (.wr 0x2000000F#32 1) (withV [] [])).map (fun t => (t.cand, t.err)) = some ([(15, 1)], 0#4) := by
  decide

/-- T-MEM-8. -/
theorem test_write_batchB :
    (access (.wr 0x9A#32 0) (withV [] [])).map (·.batchB) = some 1 ∧
    (access (.wr 0x9A#32 9) (withV [] [])).map (·.batchB) = some 4 ∧
    (access (.wr 0x9A#32 3) (withV [] [])).map (·.batchB) = some 3 := by decide

/-- T-MEM-11: in Searching nothing is decoded. -/
theorem test_busy :
    (access (.wr 0x80#32 0xFFFFFFFF#32) p3).map (fun t => (t.err, t.errinfo)) = some (4#4, 0x80#32) := by
  decide

/-- T-MEM-12: `ACCESS` comes before `BUSY`. -/
theorem test_access_before_busy :
    (access (.wr 0x81#32 0) p3).map (fun t => (t.err, t.errinfo)) = some (8#4, 0x81#32) := by decide

/-- T-MEM-14. -/
theorem test_clear_errors :
    (access (.wr 0x82#32 2) { p3 with err := 0xB#4, errinfo := 7 }).map (fun t => (t.err, t.errinfo)) =
    some (9#4, 7#32) := by decide

/-- P4 step 9: decoding comes before the check of the context. -/
theorem test_illegal_word :
    (access (.wr 0x80#32 0x40000100#32) (withV [] [])).map (fun t => (t.err, t.errinfo)) =
    some (2#4, 0x40000100#32) := by decide

/-- T-RST-1. -/
theorem test_reset_event :
    (reached (takeStep testCfg { p3 with bestLen := 2, err := 5#4, inputs := [.reset] })).map
      (fun t => (t.sched, t.bestLen, t.err, t.ctxValid, t.batchB, t.bestProof)) =
    some (SchedState.idle, 0, 0, 0, 1, ones256) := by decide

/-- The first command after reset, by the host's two functions: `VONES v7`. -/
theorem test_withFetchWord :
    step (State.reset.withFetchWord 32 0x02000700) = .next (State.reset.setV 7 ones256) := rfl

/-- The pseudo-instruction `SET64 SKEW, -100000000` (P3 step 5). -/
theorem test_setSkew : setSkew (-100000000) = [.wr 0x096#32 0xFA0A1F00#32, .wr 0x097#32 0xFFFFFFFF#32] := by
  decide

/-! ### Witnesses: for each obligation with hypotheses, a concrete state and operands that meet them together

`Config.machine` stays opaque here: a witness holds for every configuration. Where an obligation has several clauses there
is a conjunct for each, at the boundary values of its ranges. -/

/-- The machine after reset, with events to come. -/
def idleWith (events : List Event) : State := { State.reset with inputs := events }

/-- The machine in a call, the whole context written as 0 but for `MAX_INDICES`. -/
def call (limit : Word) (events : List Event) : State :=
  { State.reset with
    sched := .searching, ctxValid := 0xFFFF#16, context := (Vector.replicate 16 0).set 7 limit, inputs := events }

/-- The machine in Idle, the whole context written as 0 but for `MAX_INDICES`. -/
def ready (limit : Word) (events : List Event) : State := { call limit events with sched := .idle }

/-- `NIDX_MAX` as a word, the largest `MAX_INDICES` that a command accepts. -/
def topLimit : Word := BitVec.ofNat 32 Config.machine.nidxMax

/-- One more: the least `MAX_INDICES` that is over the limit. -/
def overTop : Word := BitVec.ofNat 32 (Config.machine.nidxMax + 1)

theorem topLimit_toNat : topLimit.toNat = Config.machine.nidxMax := by
  have := nidxMax_range Config.machine
  simp only [topLimit, BitVec.toNat_ofNat]
  omega

theorem overTop_toNat : overTop.toNat = Config.machine.nidxMax + 1 := by
  have := nidxMax_range Config.machine
  simp only [overTop, BitVec.toNat_ofNat]
  omega

theorem witness_EncodeOfDecode : decode 0x04000FFF#32 = .ok (.vadd 15 15 15) := rfl

theorem witness_StepRunsDecodedCommand :
    (idleWith [.host (.wr 0x80#32 0x04000312#32)]).inputs = .host (.wr 0x80#32 0x04000312#32) :: [] ∧
    (idleWith [.host (.wr 0x80#32 0x04000312#32)]).sched ≠ .searching ∧
    decode 0x04000312#32 = .ok (.vadd 3 1 2) := ⟨rfl, by decide, rfl⟩

theorem witness_IllegalWordRecordsIllcmd :
    (idleWith [.host (.wr 0x80#32 0x0A000000#32)]).inputs = .host (.wr 0x80#32 0x0A000000#32) :: [] ∧
    (idleWith [.host (.wr 0x80#32 0x0A000000#32)]).sched ≠ .searching ∧
    wordWellFormed 0x0A000000#32 = false := ⟨rfl, by decide, by decide⟩

/-- Both ends of the three unmapped ranges and of the read-only ranges. -/
theorem witness_AccessErrors :
    (idleWith [.host (.rd 0xAA#32)]).inputs = .host (.rd 0xAA#32) :: [] ∧
    (idleWith [.host (.wr 0xAA#32 1)]).inputs = .host (.wr 0xAA#32 1) :: [] ∧
    Unmapped Config.machine 0xAA#32 ∧ Unmapped Config.machine 0x1FFFFFFF#32 ∧
    Unmapped Config.machine (0x20000000#32 + topLimit) ∧ Unmapped Config.machine 0x3FFFFFFF#32 ∧
    Unmapped Config.machine (0x40000000#32 + topLimit) ∧ Unmapped Config.machine 0xFFFFFFFF#32 ∧
    ReadOnly Config.machine 0x81#32 ∧ ReadOnly Config.machine 0xA9#32 ∧
    ReadOnly Config.machine 0xA0#32 ∧ ReadOnly Config.machine 0xA7#32 ∧
    ReadOnly Config.machine 0x40000000#32 ∧ ReadOnly Config.machine (0x40000000#32 + topLimit - 1#32) := by
  have hr := nidxMax_range Config.machine
  have ht := topLimit_toNat
  refine ⟨rfl, rfl, ?_, ?_, ?_, ?_, ?_, ?_, ?_, ?_, ?_, ?_, ?_, ?_⟩
  all_goals try (unfold Unmapped; bv_omega)
  · unfold ReadOnly; decide +revert
  · unfold ReadOnly; decide +revert
  · exact .inr (.inl (by decide))
  · exact .inr (.inl (by decide))
  · exact .inr (.inr (by bv_omega))
  · exact .inr (.inr (by bv_omega))

/-- Writes that are refused in a call: the first and last limb, `CMD`, the last writable control register, the first and
last word of `CAND`. -/
theorem witness_WritesRefusedWhileSearching :
    (call 0 [.host (.wr 0x8E#32 7)]).inputs = .host (.wr 0x8E#32 7) :: [] ∧
    (call 0 [.host (.rd 0xAA#32)]).inputs = .host (.rd 0xAA#32) :: [] ∧
    (call 0 [.host (.wr 0x8E#32 7)]).sched = .searching ∧
    (∀ a ∈ [0x00#32, 0x7F#32, 0x80#32, 0x8E#32, 0x9B#32, 0x20000000#32, 0x20000000#32 + topLimit - 1#32],
      ¬ Unmapped Config.machine a ∧ ¬ ReadOnly Config.machine a ∧ a ≠ 0x82#32) := by
  have hr := nidxMax_range Config.machine
  have ht := topLimit_toNat
  refine ⟨rfl, rfl, rfl, ?_⟩
  intro a ha
  simp only [List.mem_cons, List.not_mem_nil, or_false] at ha
  unfold Unmapped ReadOnly
  simp only [List.mem_cons, List.not_mem_nil, or_false]
  rcases ha with rfl | rfl | rfl | rfl | rfl | rfl | rfl <;> bv_omega

theorem witness_ErrClearPerformed :
    (call 0 [.host (.wr 0x82#32 0xF)]).inputs = .host (.wr 0x82#32 0xF) :: [] := rfl

/-- A read of the last word of `CAND`, of `BEST_IDX` and of the last control register, in Idle and in a call. -/
theorem witness_ReadsFollowRegisterMap :
    (idleWith [.host (.rd (BitVec.ofNat 32 0xA9))]).inputs = .host (.rd (BitVec.ofNat 32 0xA9)) :: [] ∧
    (call 0 [.host (.rd (BitVec.ofNat 32 0x9F))]).inputs = .host (.rd (BitVec.ofNat 32 0x9F)) :: [] ∧
    (∀ i : Nat, (idleWith [.host (.rd (BitVec.ofNat 32 (0x20000000 + i)))]).inputs =
      .host (.rd (BitVec.ofNat 32 (0x20000000 + i))) :: []) ∧
    0 < Config.machine.nidxMax ∧ Config.machine.nidxMax - 1 < Config.machine.nidxMax := by
  have hn := nidxMax_range Config.machine
  exact ⟨rfl, rfl, fun _ => rfl, by omega, by omega⟩

/-- The first and the last of the registers, in Idle and in Done. -/
theorem witness_WritesFollowRegisterMap :
    let s := idleWith [.host (.wr (BitVec.ofNat 32 0x85) 7)]
    let s' : State := { idleWith [.host (.wr (BitVec.ofNat 32 0x9B) 7)] with sched := .done }
    (s.sched ≠ .searching ∧ s.inputs = .host (.wr (BitVec.ofNat 32 0x85) 7) :: []) ∧
    (s'.sched ≠ .searching ∧ s'.inputs = .host (.wr (BitVec.ofNat 32 0x9B) 7) :: []) :=
  ⟨⟨by decide, rfl⟩, ⟨by decide, rfl⟩⟩

/-- The first limb of `V0` and the last of `V15`. -/
theorem witness_LimbWriteReplacesOneLimb :
    let s := idleWith [.host (.wr (BitVec.ofNat 32 (8 * 0 + 0)) 7)]
    let s' := idleWith [.host (.wr (BitVec.ofNat 32 (8 * 15 + 7)) 7)]
    (s.sched ≠ .searching ∧ s.inputs = .host (.wr (BitVec.ofNat 32 (8 * 0 + 0)) 7) :: []) ∧
    (s'.sched ≠ .searching ∧ s'.inputs = .host (.wr (BitVec.ofNat 32 (8 * 15 + 7)) 7) :: []) :=
  ⟨⟨by decide, rfl⟩, ⟨by decide, rfl⟩⟩

theorem witness_NoSchedulerStepOutsideSearching :
    (idleWith []).sched ≠ .searching ∧ ({ idleWith [] with sched := .done } : State).sched ≠ .searching :=
  ⟨by decide, by decide⟩

theorem witness_AddFourLimbsLaw : (0 : Nat) ≤ 1 ∧ (1 : Nat) ≤ 1 := by decide

/-- The first and the last word of `CAND`. -/
theorem witness_CandWriteChangesOneWord :
    let s := idleWith [.host (.wr (BitVec.ofNat 32 (0x20000000 + 0)) 7)]
    let s' := idleWith [.host (.wr (BitVec.ofNat 32 (0x20000000 + (Config.machine.nidxMax - 1))) 7)]
    (s.sched ≠ .searching ∧ 0 < Config.machine.nidxMax ∧
      memWf (coldCand Config.machine s) Config.machine.nidxMax s.cand = true ∧
      s.inputs = .host (.wr (BitVec.ofNat 32 (0x20000000 + 0)) 7) :: []) ∧
    (s'.sched ≠ .searching ∧ Config.machine.nidxMax - 1 < Config.machine.nidxMax ∧
      memWf (coldCand Config.machine s') Config.machine.nidxMax s'.cand = true ∧
      s'.inputs = .host (.wr (BitVec.ofNat 32 (0x20000000 + (Config.machine.nidxMax - 1))) 7) :: []) := by
  have hn := nidxMax_range Config.machine
  exact ⟨⟨by decide, by omega, rfl, rfl⟩, ⟨(by decide : SchedState.idle ≠ .searching), by omega, rfl, rfl⟩⟩

theorem witness_CombineOrderIndependent : [3#32, 5#32].Perm [5#32, 3#32] := List.Perm.swap _ _ _

/-- Every needed word written, and one missing. -/
theorem witness_HstepResult :
    (ready 0 []).ctxValid &&& 0x0F00#16 = 0x0F00#16 ∧
    ({ ready 0 [] with ctxValid := 0xF7FF#16 } : State).ctxValid &&& 0x0F00#16 ≠ 0x0F00#16 := by decide

/-- Every needed word written, and one missing. -/
theorem witness_SeedResult :
    (ready 0 []).ctxValid &&& 0x0015#16 = 0x0015#16 ∧
    ({ ready 0 [] with ctxValid := 0xFFFE#16 } : State).ctxValid &&& 0x0015#16 ≠ 0x0015#16 := by decide

/-- Every needed word written, and one missing. -/
theorem witness_EvalResult :
    (ready 0 []).ctxValid &&& 0x0F55#16 = 0x0F55#16 ∧
    ({ ready 0 [] with ctxValid := 0xFFBF#16 } : State).ctxValid &&& 0x0F55#16 ≠ 0x0F55#16 := by decide

/-- `CombineResult`: at the limit; one over it; a word missing. -/
theorem witness_CombineResult :
    ((ready topLimit []).ctxValid &&& 0x0FD5#16 = 0x0FD5#16 ∧
      (ready topLimit []).context[7].toNat ≤ Config.machine.nidxMax) ∧
    ¬ ((ready overTop []).ctxValid &&& 0x0FD5#16 = 0x0FD5#16 ∧
      (ready overTop []).context[7].toNat ≤ Config.machine.nidxMax) ∧
    ¬ (({ ready 0 [] with ctxValid := 0xFFFE#16 } : State).ctxValid &&& 0x0FD5#16 = 0x0FD5#16 ∧
      ({ ready 0 [] with ctxValid := 0xFFFE#16 } : State).context[7].toNat ≤ Config.machine.nidxMax) := by
  have ht := topLimit_toNat
  have ho := overTop_toNat
  refine ⟨⟨rfl, ?_⟩, fun h => ?_, fun h => absurd h.1 (by decide)⟩
  · change topLimit.toNat ≤ _; omega
  · have := h.2; change overTop.toNat ≤ _ at this; omega

/-- `GenResult`: at the limit, with no index at all, one over the limit, and never written. -/
theorem witness_GenResult :
    memWf (coldCand Config.machine (ready topLimit [])) Config.machine.nidxMax (ready topLimit []).cand = true ∧
    (ready topLimit []).ctxValid.getLsbD 7 = true ∧ (ready topLimit []).context[7].toNat ≤ Config.machine.nidxMax ∧
    (ready 0 []).context[7].toNat ≤ Config.machine.nidxMax ∧
    ¬ ((ready overTop []).ctxValid.getLsbD 7 = true ∧
      (ready overTop []).context[7].toNat ≤ Config.machine.nidxMax) ∧
    ¬ ((idleWith []).ctxValid.getLsbD 7 = true ∧ (idleWith []).context[7].toNat ≤ Config.machine.nidxMax) := by
  have ht := topLimit_toNat
  have ho := overTop_toNat
  refine ⟨rfl, rfl, ?_, Nat.zero_le _, fun h => ?_, fun h => absurd h.1 (by decide)⟩
  · change topLimit.toNat ≤ _; omega
  · have := h.2; change overTop.toNat ≤ _ at this; omega

theorem witness_GeneratedSequenceSpaced :
    Config.machine.nidxMax ≤ Config.machine.nidxMax ∧ 1 ≤ Config.machine.nidxMax ∧
    ∃ w, (generate Config.machine 1 0).1[0]? = some w :=
  ⟨le_refl _, (nidxMax_range _).1, _, rfl⟩

/-- `StartResult`: at the limit, one over it, a word missing, and a `START` in a call. -/
theorem witness_StartResult :
    (ready topLimit []).ctxValid = 0xFFFF#16 ∧ (ready topLimit []).context[7].toNat ≤ Config.machine.nidxMax ∧
    ¬ ((ready overTop []).ctxValid = 0xFFFF#16 ∧ (ready overTop []).context[7].toNat ≤ Config.machine.nidxMax) ∧
    ¬ ((idleWith []).ctxValid = 0xFFFF#16 ∧ (idleWith []).context[7].toNat ≤ Config.machine.nidxMax) ∧
    (call 0 [.host (.wr 0x80#32 0x40000000#32)]).sched = .searching ∧
    (call 0 [.host (.wr 0x80#32 0x40000000#32)]).inputs = .host (.wr 0x80#32 0x40000000#32) :: [] ∧
    ∃ (x : Lane) (l : Nat), (ready topLimit []).lanes[l]? = some x := by
  have ht := topLimit_toNat
  have ho := overTop_toNat
  refine ⟨rfl, ?_, fun h => ?_, fun h => absurd h.1 (by decide), rfl, rfl, Lane.blank, 0, rfl⟩
  · change topLimit.toNat ≤ _; omega
  · have := h.2; change overTop.toNat ≤ _ at this; omega

/-- `CheckStepEffect`: just before the deadline, and at it. -/
theorem witness_CheckStepEffect :
    let s : State := { call 0 [] with phase := .check, deadline := 10, now := 9 }
    (s.sched = .searching ∧ s.phase = .check ∧ (s.now.toNat : Int) < s.deadline) ∧
    ¬ (({ s with now := 10 } : State).now.toNat : Int) < s.deadline := by decide

/-- A call with two lanes, the first one in the batch. -/
def twoLanes : State := { call 0 [] with lanes := [Lane.blank, { Lane.blank with rng := 1 }] }

/-- `BatchStepEffect`: the last lane of the batch, the first lane after it, and a warning already set. -/
theorem witness_BatchStepEffect :
    twoLanes.sched = .searching ∧ twoLanes.phase = .batch ∧ ({ twoLanes with warn := true } : State).warn = true ∧
    (∃ x y, twoLanes.lanes[0]? = some x ∧ (schedulerStep Config.machine twoLanes).lanes[0]? = some y ∧
      0 < twoLanes.batchB.toNat) ∧
    (∃ x y, twoLanes.lanes[1]? = some x ∧ (schedulerStep Config.machine twoLanes).lanes[1]? = some y ∧
      twoLanes.batchB.toNat ≤ 1) :=
  ⟨rfl, rfl, rfl, ⟨_, _, rfl, rfl, by decide⟩, ⟨_, _, rfl, rfl, by decide⟩⟩

/-- `ReductionTakesLeastLane`: two lanes tie with the zero proof, lane 0 is the least; strictly below the running best in
the one case, equal to it in the other. -/
theorem witness_ReductionTakesLeastLane :
    let s : State := { twoLanes with batchB := 2 }
    let t := schedulerStep Config.machine s
    s.sched = .searching ∧ s.phase = .batch ∧
    memWf (coldBestIdx Config.machine s) Config.machine.nidxMax s.bestIdx = true ∧ 0 < s.batchB.toNat ∧
    ∃ y : Lane, t.lanes[0]? = some y ∧
      (∀ (j : Nat) (z : Lane), j < s.batchB.toNat → t.lanes[j]? = some z → y.proof.toNat ≤ z.proof.toNat) ∧
      (∀ (j : Nat) (z : Lane), j < 0 → t.lanes[j]? = some z → y.proof.toNat < z.proof.toNat) ∧
      y.proof.toNat < s.bestProof.toNat ∧ ({ s with bestProof := 0 } : State).bestProof.toNat ≤ y.proof.toNat := by
  refine ⟨rfl, rfl, rfl, by decide, _, rfl, fun j z _ _ => Nat.zero_le _, fun j z h => by omega, ?_, Nat.zero_le _⟩
  change (0 : U256).toNat < ones256.toNat
  decide

/-- A call with one index to a candidate, no ratchet step, and two lanes whose streams are alike: their proofs tie. -/
def tiedLanes : State := { call 1 [] with lanes := [Lane.blank, Lane.blank], batchB := 2 }

/-- The seed of an index is not the worst proof while the rest of the context is 0. -/
theorem proof_lt_ones (w : Word) : (combine (call 1 []).context [w]).toNat < ones256.toNat := by
  have hw := w.isLt
  have h : combine (call 1 []).context [w] = zero256 ^^^ BitVec.ofNat 256 (w.toNat + 2 ^ 32 * 0) := rfl
  rw [h, BitVec.zero_xor, BitVec.toNat_ofNat, BitVec.toNat_allOnes]
  omega

/-- `ReductionTakesLeastLane` with an index in the candidate, the lanes tied, both cases of the merge. -/
theorem witness_ReductionTakesLeastLane_one_index :
    let t := schedulerStep Config.machine tiedLanes
    tiedLanes.sched = .searching ∧ tiedLanes.phase = .batch ∧ tiedLanes.context[7] = 1 ∧
    memWf (coldBestIdx Config.machine tiedLanes) Config.machine.nidxMax tiedLanes.bestIdx = true ∧
    0 < tiedLanes.batchB.toNat ∧
    ∃ y : Lane, t.lanes[0]? = some y ∧
      (∀ (j : Nat) (z : Lane), j < tiedLanes.batchB.toNat → t.lanes[j]? = some z → y.proof.toNat ≤ z.proof.toNat) ∧
      (∀ (j : Nat) (z : Lane), j < 0 → t.lanes[j]? = some z → y.proof.toNat < z.proof.toNat) ∧
      y.proof.toNat < tiedLanes.bestProof.toNat ∧
      ({ tiedLanes with bestProof := 0 } : State).bestProof.toNat ≤ y.proof.toNat := by
  refine ⟨rfl, rfl, rfl, rfl, by decide, runLane Config.machine (call 1 []).context Lane.blank, rfl, ?_,
    fun j z h => by omega, proof_lt_ones _, Nat.zero_le _⟩
  intro j z hj hz
  have hl : (schedulerStep Config.machine tiedLanes).lanes =
      List.replicate 2 (runLane Config.machine (call 1 []).context Lane.blank) := rfl
  rw [hl] at hz
  rw [List.eq_of_mem_replicate (List.mem_of_getElem? hz)]

/-- The second lane as the least one, with two indices, in the configuration of the vectors: `Config.machine` may be one whose
streams all draw alike, so for it no lane after the first can be named that is strictly least. -/
theorem witness_ReductionTakesLeastLane_second_lane :
    let s : State := { p3 with lanes := p3.lanes.mapIdx fun l x => { x with rng := if l = 1 then 9900 else 1021 } }
    let t := schedulerStep testCfg s
    s.sched = .searching ∧ s.phase = .batch ∧ s.context[7] = 2 ∧ 1 < s.batchB.toNat ∧
    (t.lanes.map (·.proof.toNat))[1]! < (t.lanes.map (·.proof.toNat))[0]! ∧
    t.bestProof = (t.lanes.map (·.proof))[1]! ∧ t.bestIdx = [(0, 1), (1, 2)] := by decide

theorem witness_EmptyCandidateGivesZeroProof :
    (call 0 []).sched = .searching ∧ (call 0 []).phase = .batch ∧ (call 0 []).context[7] = 0 ∧
    (call 0 []).bestLen = 0 ∧ 1 ≤ (call 0 []).batchB.toNat ∧ 1 ≤ (call 0 []).lanes.length :=
  ⟨rfl, rfl, rfl, rfl, by decide, Nat.succ_le_succ (Nat.zero_le _)⟩

/-- The deadline is exactly now. -/
theorem witness_PastDeadlineRunsOneBatch :
    let s := ready topLimit [.host (.wr 0x80#32 0x40000000#32), .scheduler, .scheduler]
    s.inputs = [.host (.wr 0x80#32 0x40000000#32), .scheduler, .scheduler] ∧ s.sched ≠ .searching ∧
    s.ctxValid = 0xFFFF#16 ∧ s.context[7].toNat ≤ Config.machine.nidxMax ∧
    deadlineOf Config.machine s.context ≤ (s.now.toNat : Int) := by
  have ht := topLimit_toNat
  refine ⟨rfl, by decide, rfl, ?_, ?_⟩
  · change topLimit.toNat ≤ _; omega
  · change (0 : Int) + 0 - (Config.machine.safetyMarginNs : Int) ≤ 0; omega

/-- A call whose scheduler has its turn, with nothing else to come: a batch step. -/
theorem witness_SearchLeavesHostStateAlone :
    (call 0 []).sched = .searching ∧ step (call 0 []) = .next (schedulerStep Config.machine (call 0 [])) ∧
    (∀ rest, (call 0 []).inputs ≠ .reset :: rest) := ⟨rfl, rfl, fun _ => (List.cons_ne_nil _ _).symm⟩

/-- The same step. -/
theorem witness_BestProofNeverWorsens :
    (call 0 []).sched = .searching ∧ step (call 0 []) = .next (schedulerStep Config.machine (call 0 [])) ∧
    (∀ rest, (call 0 []).inputs ≠ .reset :: rest) := witness_SearchLeavesHostStateAlone

/-- The same step, every valid bit set. -/
theorem witness_ValidBitsPersist :
    (call 0 []).ctxValid = 0xFFFF#16 ∧ step (call 0 []) = .next (schedulerStep Config.machine (call 0 [])) ∧
    (∀ rest, (call 0 []).inputs ≠ .reset :: rest) := ⟨rfl, witness_SearchLeavesHostStateAlone.2⟩

theorem witness_UnreachableDeadlineKeepsSearching :
    let s : State := { call 0 [] with phase := .check, deadline := 2 ^ 64 }
    s.sched = .searching ∧ (2 ^ 64 : Int) ≤ s.deadline ∧ step s = .next (schedulerStep Config.machine s) ∧
    (∀ rest, s.inputs ≠ .reset :: rest) :=
  ⟨rfl, le_refl _, rfl, fun _ => (List.cons_ne_nil _ _).symm⟩

/-- `StateChangesOnlyAsTheTableSays`, each change: none, to Searching, to Done, to Idle. -/
theorem witness_StateChangesOnlyAsTheTableSays :
    (∃ t, step (idleWith []) = .next t ∧ t.sched = .idle) ∧
    (∃ t, step (ready 0 [.host (.wr 0x80#32 0x40000000#32)]) = .next t ∧ t.sched = .searching) ∧
    (∃ t, step { call 0 [.scheduler] with phase := .check } = .next t ∧ t.sched = .done) ∧
    (∃ t, step (call 0 [.reset]) = .next t ∧ t.sched = .idle) :=
  ⟨⟨_, rfl, rfl⟩, ⟨_, rfl, rfl⟩, ⟨_, rfl, rfl⟩, ⟨_, rfl, rfl⟩⟩

/-- A read of `ERR` in Idle changes `rdata` only. -/
theorem witness_ResultsStableOutsideSearching :
    ∃ t, (idleWith [.host (.rd 0x82#32)]).sched ≠ .searching ∧ step (idleWith [.host (.rd 0x82#32)]) = .next t ∧
      t.sched ≠ .searching ∧ ∀ rest, (idleWith [.host (.rd 0x82#32)]).inputs ≠ .reset :: rest := by
  refine ⟨_, by decide, rfl, ?_, fun rest h => nomatch h⟩
  change SchedState.idle ≠ .searching
  decide

/-- `ErrorBitsSticky`: an illegal command with a bit set already. -/
theorem witness_ErrorBitsSticky :
    let s : State := { idleWith [.host (.wr 0x80#32 0x0A000000#32)] with err := 1#4 }
    ∃ t, step s = .next t ∧ t.err = 3#4 ∧ (∀ rest, s.inputs ≠ .reset :: rest) ∧
      (∀ rest w, s.inputs ≠ .host (.wr 0x82#32 w) :: rest) := by
  refine ⟨_, rfl, rfl, fun rest => ?_, fun rest w => ?_⟩
  · change [Event.host (.wr 0x80#32 0x0A000000#32)] ≠ _
    simp
  · change [Event.host (.wr 0x80#32 0x0A000000#32)] ≠ _
    simp

/-- `FlagsWrittenOnlyByTheirCommands`: a step that sets `CARRY`, and one that changes `CMP`. -/
theorem witness_FlagsWrittenOnlyByTheirCommands :
    (∃ t, step { idleWith [.host (.wr 0x80#32 0x04000312#32)] with vregs := Vector.replicate 16 ones256 } = .next t ∧
      t.carry ≠ false) ∧
    (∃ t, step { idleWith [.host (.wr 0x80#32 0x08000012#32)] with vregs := (Vector.replicate 16 0).set 1 1 } =
      .next t ∧ t.cmp ≠ .equal) := by
  refine ⟨⟨_, rfl, ?_⟩, ⟨_, rfl, ?_⟩⟩
  · change (add256 ones256 ones256).2 ≠ false
    decide
  · change cmp256 1 0 ≠ .equal
    decide

/-- The two accesses of `SeedRewriteRepeatsCandidate`. -/
def reseedAndGen : List Event := [.host (.wr 0x9B#32 5), .host (.wr 0x80#32 0x30000000#32)]

/-- The state between the two accesses. -/
def reseeded (events : List Event) : State :=
  { ready 1 events with rngSeed := 5, hostRng := Config.machine.rngInit 5 Config.machine.bMax }

theorem reseeded_gen :
    step (reseeded [.host (.wr 0x80#32 0x30000000#32)]) = .next (genPerformed Config.machine (reseeded [])) := by
  have hn := nidxMax_range Config.machine
  have hl : overLimit Config.machine .gen (reseeded []) = decide (Config.machine.nidxMax < 1) := rfl
  have hc : contextOk Config.machine .gen (reseeded []) = true :=
    contextOk_iff.mpr ⟨by decide, hl.trans (decide_eq_false (by omega))⟩
  exact checked_of_ok hc

theorem reseedAndGen_runs (s : State) (h : step s = .next (reseeded [.host (.wr 0x80#32 0x30000000#32)])) :
    ∃ t, Host.Core.run Sys2Proof.core 2 s = .next t := by
  refine ⟨genPerformed Config.machine (reseeded []), ?_⟩
  simp only [Host.Core.run, Sys2Proof.core, h, reseeded_gen]

theorem witness_SeedRewriteRepeatsCandidate :
    let s := ready 1 reseedAndGen
    let s' : State := { ready 1 reseedAndGen with hostRng := 7 }
    s.sched ≠ .searching ∧ s'.sched ≠ .searching ∧ s.context[7] = s'.context[7] ∧
    s.context[7].toNat ≤ Config.machine.nidxMax ∧
    memWf (coldCand Config.machine s) Config.machine.nidxMax s.cand = true ∧
    memWf (coldCand Config.machine s') Config.machine.nidxMax s'.cand = true ∧
    s.ctxValid.getLsbD 7 = true ∧ s'.ctxValid.getLsbD 7 = true ∧ s.inputs = reseedAndGen ∧ s'.inputs = reseedAndGen ∧
    (∃ t, Host.Core.run Sys2Proof.core 2 s = .next t) ∧ (∃ t, Host.Core.run Sys2Proof.core 2 s' = .next t) ∧
    0 < s.context[7].toNat :=
  ⟨by decide, by decide, rfl, (nidxMax_range _).1, rfl, rfl, rfl, rfl, rfl, rfl, reseedAndGen_runs _ rfl,
    reseedAndGen_runs _ rfl, by decide⟩

/-- A call satisfies the invariant; its scheduler has its turn. -/
theorem witness_StepKeepsInv :
    (call topLimit []).Inv Config.machine ∧
    step (call topLimit []) = .next (schedulerStep Config.machine (call topLimit [])) := by
  have hn := nidxMax_range Config.machine
  have hb := bMax_range Config.machine
  have ht := topLimit_toNat
  refine ⟨⟨rfl, rfl, by decide, ?_, ?_, Nat.zero_le _, fun _ => by decide, fun _ => ?_⟩, rfl⟩
  · change 1 ≤ _; exact hb.1
  · exact List.length_replicate
  · change topLimit.toNat ≤ _; omega

/-- `BestResultStaysGenuine`: the call goes on, and the call ends. -/
theorem witness_BestResultStaysGenuine :
    let s : State := { call 0 [] with phase := .check }
    s.Inv Config.machine ∧ s.CallInv Config.machine ∧ s.sched = .searching ∧
    (∃ t, step s = .next t ∧ t.sched = .done) ∧
    (∃ t, step { s with deadline := 1 } = .next t ∧ t.sched = .searching) := by
  have hb := bMax_range Config.machine
  refine ⟨⟨rfl, rfl, by decide, ?_, ?_, Nat.zero_le _, fun _ => by decide, fun _ => Nat.zero_le _⟩,
    fun _ => .inl ⟨rfl, rfl⟩, rfl, ⟨_, rfl, rfl⟩, ⟨_, rfl, rfl⟩⟩
  · change 1 ≤ _; exact hb.1
  · exact List.length_replicate

theorem witness_CanonicalMemoriesEqual :
    memWf (fun _ => 0) 2 (memWrite (fun _ => 0) [(1, 5#32)] 0 7) = true ∧ memWf (fun _ => 0) 2 [(0, 7#32), (1, 5)] = true ∧
    ∀ i, memRead (fun _ => 0) (memWrite (fun _ => 0) [(1, 5#32)] 0 7) i = memRead (fun _ => 0) [(0, 7#32), (1, 5)] i :=
  ⟨by decide, by decide, fun _ => rfl⟩

theorem witness_ResetEventValues : (call 0 [.reset]).inputs = .reset :: [] := rfl

/-- No event, in Idle and in a call; the scheduler's event, with another to follow. -/
theorem witness_EmptyQueueWaitsOrSearches :
    ((idleWith []).inputs = [] ∧ (idleWith []).sched ≠ .searching) ∧
    ((call 0 []).inputs = [] ∧ (call 0 []).sched = .searching) ∧
    (call 0 [.scheduler, .clock 1]).inputs = .scheduler :: [.clock 1] :=
  ⟨⟨rfl, by decide⟩, ⟨rfl, rfl⟩, rfl⟩

/-- A clock event at the same time, one that advances it by one, one that would take it back by one, and the steps. -/
theorem witness_TimeChangesByClockEventsOnly :
    let s (c : U64) : State := { idleWith [.clock c] with now := 5 }
    ((s 5).inputs = .clock 5 :: [] ∧ (s 5).now.toNat ≤ (5 : U64).toNat) ∧
    ((s 6).inputs = .clock 6 :: [] ∧ (s 6).now.toNat ≤ (6 : U64).toNat) ∧
    ((s 4).inputs = .clock 4 :: [] ∧ (4 : U64).toNat < (s 4).now.toNat) ∧
    (∃ t, step (s 6) = .next t ∧ t.now ≠ (s 6).now) :=
  ⟨⟨rfl, by decide⟩, ⟨rfl, by decide⟩, ⟨rfl, by decide⟩, ⟨_, rfl, by decide⟩⟩

end Sys2Proof.Tests
end

section
/-! The statements on the step as a whole: that it always answers a next state, and that it keeps the invariant. First
one equation for all 16 commands; then the invariant operation by operation, up to the step. -/

namespace Sys2Proof.Machine

/-! ### Every command is a checked effect (R101, R108) -/

/-- The state a command leaves when its context check passes: step (3) of R101. -/
def commandEffect (cfg : Config) (i : Instr) (s : State) : State :=
  match i with
  | .nop => s
  | .vzero rd => s.setV rd zero256
  | .vones rd => s.setV rd ones256
  | .vcopy rd ra => s.setV rd (s.v ra)
  | .vadd rd ra rb => writeSum rd (add256 (s.v ra) (s.v rb)) s
  | .vadds rd ra => writeSum rd (addScalar (s.v ra) s.scalar) s
  | .vmul rd ra rb => s.setV rd (widenMul4 (lo128 (s.v ra)) (lo128 (s.v rb)))
  | .vxor rd ra rb => s.setV rd (s.v ra ^^^ s.v rb)
  | .vcmp ra rb => s.setCmp (cmp256 (s.v ra) (s.v rb))
  | .vapprox ra => vapproxWith cfg ra s
  | .hstep rd ra => s.setV rd (hashStep (s.v ra) (roundConstants s.context))
  | .seed rd => s.setV rd (seedOf s.context s.scalar)
  | .eval rd => s.setV rd (evaluate s.context s.scalar)
  | .combine rd => s.setV rd (combine s.context (candidateWords cfg s))
  | .gen => genPerformed cfg s
  | .start => startPerformed cfg s

/-- A command that needs no context word and uses no index memory always passes its check. -/
theorem contextOk_of_need_zero (cfg : Config) {i : Instr} (hneed : need i = 0) (hlim : limited i = false) (s : State) :
    contextOk cfg i s = true := by
  simp [contextOk_iff, hneed, overLimit, hlim]

/-- The meaning of every command in one equation: the context check, then the command's effect. -/
theorem exec_eq_checked (i : Instr) (s : State) :
    exec i s = checked Config.machine i s (commandEffect Config.machine i s) := by
  cases i with
  | hstep | seed | eval | combine | gen | start => rfl
  | nop | vzero | vones | vcopy | vadd | vadds | vmul | vxor | vcmp | vapprox =>
    exact (checked_of_ok (contextOk_of_need_zero _ rfl rfl s)).symm

/-! ### Every step answers a next state (R15) -/

theorem checked_completes (cfg : Config) (i : Instr) (s performed : State) :
    ∃ t, checked cfg i s performed = .next t := by
  cases h : contextOk cfg i s with
  | true => exact ⟨_, checked_of_ok h⟩
  | false => exact ⟨_, checked_of_not_ok h⟩

theorem exec_completes (i : Instr) (s : State) : ∃ t, exec i s = .next t := by
  rw [exec_eq_checked]
  exact checked_completes _ _ _ _

theorem runCommand_completes (w : Word) (s : State) : ∃ t, runCommand w s = .next t := by
  unfold runCommand
  split
  · exact ⟨_, rfl⟩
  · exact exec_completes _ s

theorem performWrite_completes (cfg : Config) (w : Word) (s : State) (tgt : Target) :
    ∃ t, performWrite cfg w s tgt = .next t := by
  unfold performWrite
  split
  · exact runCommand_completes w s
  · exact ⟨_, rfl⟩

theorem hostWrite_completes (cfg : Config) (a w : Word) (s : State) : ∃ t, hostWrite cfg a w s = .next t := by
  unfold hostWrite
  split
  · exact ⟨_, rfl⟩
  · next tgt _ =>
    split
    · exact ⟨_, rfl⟩
    · split
      · exact ⟨_, rfl⟩
      · exact performWrite_completes cfg w s tgt

theorem react_completes (cfg : Config) (e : Event) (s : State) : ∃ t, react cfg e s = .next t := by
  match e with
  | .host (.wr a w) => exact hostWrite_completes cfg a w s
  | .host (.rd _) | .scheduler | .clock _ | .reset => exact ⟨_, rfl⟩

/-- Settles O7: of the step's arms only a performed write to `CMD` could stop, and every command completes. -/
theorem stepAlwaysCompletes : Obligations.StepAlwaysCompletes := by
  intro s
  unfold step takeStep
  split
  · exact ⟨_, rfl⟩
  · exact react_completes _ _ _

/-! ### The frame rule of the invariant -/

/-- The fields that the invariant reads. -/
def State.invFields (s : State) : WordMem × WordMem × Word × List Lane × Word × SchedState × BitVec 16 × Context × Nat :=
  (s.cand, s.bestIdx, s.batchB, s.lanes, s.bestLen, s.sched, s.ctxValid, s.context, s.resets)

/-- A state that agrees with one that has the invariant in the fields it reads has it too. -/
theorem State.Inv.of_invFields_eq {cfg : Config} {s t : State} (h : s.Inv cfg) (ht : t.invFields = s.invFields) :
    t.Inv cfg := by
  simp only [State.invFields, Prod.mk.injEq] at ht
  obtain ⟨hcand, hbestIdx, hbatchB, hlanes, hbestLen, hsched, hvalid, hctx, hresets⟩ := ht
  have hcoldCand : coldCand cfg t = coldCand cfg s := by unfold coldCand; rw [hresets]
  have hcoldBest : coldBestIdx cfg t = coldBestIdx cfg s := by unfold coldBestIdx; rw [hresets]
  constructor
  case cand_wf => rw [hcoldCand, hcand]; exact h.cand_wf
  case bestIdx_wf => rw [hcoldBest, hbestIdx]; exact h.bestIdx_wf
  case batchB_pos => rw [hbatchB]; exact h.batchB_pos
  case batchB_le => rw [hbatchB]; exact h.batchB_le
  case lanes_length => rw [hlanes]; exact h.lanes_length
  case bestLen_le => rw [hbestLen]; exact h.bestLen_le
  case searching_valid => rw [hsched, hvalid]; exact h.searching_valid
  case searching_limit => rw [hsched, hctx]; exact h.searching_limit

@[simp] theorem raiseError_invFields (e : ErrorKind) (info : Word) (s : State) :
    (raiseError e info s).invFields = s.invFields := rfl

@[simp] theorem clearErrors_invFields (w : Word) (s : State) : (clearErrors w s).invFields = s.invFields := rfl

@[simp] theorem State.setV_invFields (s : State) (r : VReg) (x : U256) : (s.setV r x).invFields = s.invFields := rfl

theorem hostRead_invFields (cfg : Config) (a : Word) (s : State) : (hostRead cfg a s).invFields = s.invFields := by
  unfold hostRead
  split <;> rfl

theorem advanceClock_invFields (c : U64) (s : State) : (advanceClock c s).invFields = s.invFields := by
  obtain ⟨_, h⟩ | ⟨_, h⟩ := advanceClock_cases c s <;> rw [h]
  rfl

/-- Only `GEN` and `START` change a field that the invariant reads. -/
theorem commandEffect_invFields (cfg : Config) {i : Instr} (hgen : i ≠ .gen) (hstart : i ≠ .start) (s : State) :
    (commandEffect cfg i s).invFields = s.invFields := by
  cases i with
  | gen => exact absurd rfl hgen
  | start => exact absurd rfl hstart
  | _ => rfl

/-! ### What a passed context check gives (R108) -/

/-- Each context word that a command needs has been written. -/
theorem ctxValid_of_contextOk {cfg : Config} {i : Instr} {s : State} (h : contextOk cfg i s = true) {n : Nat}
    (hn : (need i).getLsbD n = true) : s.ctxValid.getLsbD n = true := by
  obtain ⟨hmissing, -⟩ := contextOk_iff.mp h
  have hlt : n < 16 := BitVec.lt_of_getLsbD hn
  have hbit := congrArg (BitVec.getLsbD · n) hmissing
  simpa [hn, hlt] using hbit

/-- A command that uses an index memory and needs `MAX_INDICES` finds it within the limit. -/
theorem maxIndices_le_of_contextOk {cfg : Config} {i : Instr} {s : State} (h : contextOk cfg i s = true)
    (hlim : limited i = true) (hn : (need i).getLsbD 7 = true) : (maxIndices s.context).toNat ≤ cfg.nidxMax := by
  have hvalid := ctxValid_of_contextOk h hn
  obtain ⟨-, hover⟩ := contextOk_iff.mp h
  simpa [overLimit, hlim, hvalid] using hover

/-- `START` needs all 16 words. -/
theorem ctxValid_eq_of_start {cfg : Config} {s : State} (h : contextOk cfg .start s = true) :
    s.ctxValid = BitVec.allOnes 16 := by
  apply BitVec.eq_of_getLsbD_eq
  intro n hn
  rw [BitVec.getLsbD_allOnes, decide_eq_true hn]
  refine ctxValid_of_contextOk h ?_
  change (BitVec.allOnes 16).getLsbD n = true
  rw [BitVec.getLsbD_allOnes, decide_eq_true hn]

/-! ### The commands keep the invariant -/

/-- `GEN` writes `MAX_INDICES` words of `CAND`, within its memory (R214). -/
theorem genPerformed_inv {cfg : Config} {s : State} (h : s.Inv cfg) (hok : contextOk cfg .gen s = true) :
    (genPerformed cfg s).Inv cfg := by
  have hle : (maxIndices s.context).toNat ≤ cfg.nidxMax := maxIndices_le_of_contextOk hok rfl (by decide)
  have hlen : (generate cfg (maxIndices s.context).toNat s.hostRng).1.length = (maxIndices s.context).toNat :=
    generateFrom_length _ _ _ _
  exact { h with cand_wf := memWf_memWriteFrom _ h.cand_wf (by omega) }

/-- `START` enters Searching with the whole context checked and an empty best result (R222). -/
theorem startPerformed_inv {cfg : Config} {s : State} (h : s.Inv cfg) (hok : contextOk cfg .start s = true) :
    (startPerformed cfg s).Inv cfg :=
  { h with
    lanes_length := by simp [h.lanes_length]
    bestLen_le := Nat.zero_le _
    searching_valid := fun _ => ctxValid_eq_of_start hok
    searching_limit := fun _ => maxIndices_le_of_contextOk hok rfl (by decide) }

theorem commandEffect_inv {cfg : Config} {i : Instr} {s : State} (h : s.Inv cfg) (hok : contextOk cfg i s = true) :
    (commandEffect cfg i s).Inv cfg := by
  by_cases hgen : i = .gen
  · subst hgen; exact genPerformed_inv h hok
  by_cases hstart : i = .start
  · subst hstart; exact startPerformed_inv h hok
  exact h.of_invFields_eq (commandEffect_invFields cfg hgen hstart s)

theorem exec_inv {i : Instr} {s t : State} (h : s.Inv Config.machine) (ht : exec i s = .next t) :
    t.Inv Config.machine := by
  rw [exec_eq_checked] at ht
  obtain ⟨hok, rfl⟩ | ⟨-, rfl⟩ := checked_next ht
  · exact commandEffect_inv h hok
  · exact h.of_invFields_eq (raiseError_invFields _ _ _)

theorem runCommand_inv {w : Word} {s t : State} (h : s.Inv Config.machine) (ht : runCommand w s = .next t) :
    t.Inv Config.machine := by
  obtain ⟨-, rfl⟩ | ⟨i, -, hi⟩ := runCommand_next ht
  · exact h.of_invFields_eq (raiseError_invFields _ _ _)
  · exact exec_inv h hi

/-! ### The host's writes keep the invariant -/

/-- A mapped address of `CAND` names a word within the memory (R71). -/
theorem lt_nidxMax_of_resolve_cand {cfg : Config} {a : Word} {i : Nat} (h : resolve cfg a = some (.cand i)) :
    i < cfg.nidxMax := by
  simp only [resolve] at h
  split_ifs at h with _ _ _ _ hcand
  · cases h
  · cases h
  · cases h
  · simp at h
  · injection h with h
    injection h with h
    omega
  · cases h

/-- The value `BATCH_B` takes lies in `1..B_MAX` (R46). -/
theorem clampBatch_range (cfg : Config) (w : Word) :
    1 ≤ (clampBatch cfg w).toNat ∧ (clampBatch cfg w).toNat ≤ cfg.bMax := by
  obtain ⟨hpos, hlt⟩ := bMax_range cfg
  have hval : (clampBatch cfg w).toNat = min (max w.toNat 1) cfg.bMax := by
    unfold clampBatch
    rw [BitVec.toNat_ofNat, Nat.mod_eq_of_lt (by omega)]
  omega

theorem writeCand_inv {cfg : Config} {s : State} (h : s.Inv cfg) {i : Nat} (hi : i < cfg.nidxMax) (w : Word) :
    (writeCand cfg s i w).Inv cfg :=
  { h with cand_wf := memWf_memWrite h.cand_wf hi w }

/-- Outside Searching nothing is asked of the context. -/
theorem setContext_inv {cfg : Config} {s : State} (h : s.Inv cfg) (hs : s.sched ≠ .searching) (n : Fin 16) (w : Word) :
    (s.setContext n w).Inv cfg :=
  { h with
    searching_valid := fun hs' => absurd hs' hs
    searching_limit := fun hs' => absurd hs' hs }

/-- A performed store keeps the invariant; while Searching the only one is to `ERR` (R73). -/
theorem storeTarget_inv {cfg : Config} {a w : Word} {s : State} {tgt : Target} (h : s.Inv cfg)
    (ha : resolve cfg a = some tgt) (hs : s.sched ≠ .searching ∨ tgt = .ctrl .err) :
    (storeTarget cfg w s tgt).Inv cfg := by
  cases tgt with
  | limb r k => exact h.of_invFields_eq (State.setV_invFields _ _ _)
  | context n => exact setContext_inv h (hs.resolve_right (by simp)) n w
  | bestProof k => exact h
  | cand i => exact writeCand_inv h (lt_nidxMax_of_resolve_cand ha) w
  | bestIdx i => exact h
  | ctrl c =>
    cases c with
    | batchB =>
      obtain ⟨hpos, hle⟩ := clampBatch_range cfg w
      exact { h with batchB_pos := hpos, batchB_le := hle }
    | _ => exact h.of_invFields_eq rfl

theorem hostWrite_inv {a w : Word} {s t : State} (h : s.Inv Config.machine)
    (ht : hostWrite Config.machine a w s = .next t) : t.Inv Config.machine := by
  obtain rfl | ⟨-, rfl⟩ | ⟨-, -, hrun⟩ | ⟨tgt, ha, -, -, hs, rfl⟩ := hostWrite_next ht
  · exact h.of_invFields_eq (raiseError_invFields _ _ _)
  · exact h.of_invFields_eq (raiseError_invFields _ _ _)
  · exact runCommand_inv h hrun
  · exact storeTarget_inv h ha hs

/-! ### The scheduler's steps keep the invariant -/

/-- A lane that ran holds a candidate of `MAX_INDICES` words (R226). -/
theorem cand_length_of_mem_batchRun {cfg : Config} {s : State} {l : Lane} (hl : l ∈ batchRun cfg s) :
    l.cand.length = (maxIndices s.context).toNat := by
  obtain ⟨lane, -, rfl⟩ := List.mem_map.mp hl
  exact generateFrom_length _ _ _ _

/-- The reduction writes a best result that fits its memory (R227). -/
theorem reduceBatch_inv {cfg : Config} {s : State} {run : List Lane} (h : s.Inv cfg)
    (hlimit : (maxIndices s.context).toNat ≤ cfg.nidxMax)
    (hrun : ∀ l ∈ run, l.cand.length = (maxIndices s.context).toNat) : (reduceBatch cfg run s).Inv cfg := by
  obtain heq | ⟨l, hl, -, heq⟩ := reduceBatch_cases cfg run s
  · rw [heq]; exact h
  · have hlen := hrun l hl
    rw [heq]
    exact { h with
      bestIdx_wf := memWf_memWriteFrom _ h.bestIdx_wf (by omega)
      bestLen_le := hlimit }

/-- A batch step replaces the lanes that ran one by one, so their number stays (R226, R235). -/
theorem batchStep_lanes_length (cfg : Config) (s : State) : (batchStep cfg s).lanes.length = s.lanes.length := by
  simp only [batchStep, batchRun, List.length_append, List.length_map, List.length_take, List.length_drop]
  omega

theorem batchStep_inv {cfg : Config} {s : State} (h : s.Inv cfg) (hs : s.sched = .searching) :
    (batchStep cfg s).Inv cfg := by
  have hred : (reduceBatch cfg (batchRun cfg s) s).Inv cfg :=
    reduceBatch_inv h (h.searching_limit hs) fun _ => cand_length_of_mem_batchRun
  exact { hred with lanes_length := (batchStep_lanes_length cfg s).trans h.lanes_length }

theorem checkStep_inv {cfg : Config} {s : State} (h : s.Inv cfg) : (checkStep s).Inv cfg := by
  unfold checkStep
  split
  · exact { h with searching_valid := nofun, searching_limit := nofun }
  · exact h.of_invFields_eq rfl

theorem schedulerStep_inv {cfg : Config} {s : State} (h : s.Inv cfg) : (schedulerStep cfg s).Inv cfg := by
  obtain ⟨hs, -, heq⟩ | ⟨-, -, heq⟩ | ⟨-, heq⟩ := schedulerStep_cases cfg s <;> rw [heq]
  · exact batchStep_inv h hs
  · exact checkStep_inv h
  · exact h

/-! ### The reset event and the step -/

/-- The reset event establishes the invariant from any state (R290). -/
theorem resetEvent_inv (cfg : Config) (s : State) : (resetEvent cfg s).Inv cfg where
  cand_wf := memWf_nil _ _
  bestIdx_wf := memWf_nil _ _
  batchB_pos := Nat.le_refl 1
  batchB_le := (bMax_range cfg).1
  lanes_length := by simp
  bestLen_le := Nat.zero_le _
  searching_valid := nofun
  searching_limit := nofun

/-- Settles O52, by the cases of what one step can do. -/
theorem stepKeepsInv : Obligations.StepKeepsInv := by
  intro s t h ht
  have hrest (rest : List Event) : { s with inputs := rest }.Inv Config.machine := h.of_invFields_eq rfl
  obtain ⟨-, rfl⟩ | ⟨rest, a, -, rfl⟩ | ⟨rest, a, w, -, hw⟩ | ⟨rest, -, rfl⟩ | ⟨rest, c, -, rfl⟩ | ⟨rest, -, rfl⟩ :=
    takeStep_next ht
  · exact schedulerStep_inv h
  · exact (hrest rest).of_invFields_eq (hostRead_invFields _ _ _)
  · exact hostWrite_inv (hrest rest) hw
  · exact schedulerStep_inv (hrest rest)
  · exact (hrest rest).of_invFields_eq (advanceClock_invFields _ _)
  · exact resetEvent_inv _ _

end Sys2Proof.Machine
end

section
/-! The statements on single accesses, on what a step leaves alone, and on the word memories. First the address map as a
pair of inverse functions, then what a read and a performed write do at a mapped address; then every step but a reset,
field by field. -/

namespace Sys2Proof.Machine

/-! ### The address map and its inverse (R59, R71) -/

/-- The word address of a control register (R59). -/
def CtrlReg.addr : CtrlReg → Nat
  | .cmd => 0x80
  | .status => 0x81
  | .err => 0x82
  | .errinfo => 0x83
  | .flags => 0x84
  | .scalar => 0x85
  | .approxLo => 0x86
  | .approxHi => 0x87
  | .periodLo => 0x98
  | .periodHi => 0x99
  | .batchB => 0x9A
  | .rngSeed => 0x9B
  | .ctxValid => 0x9C
  | .batchesLo => 0x9D
  | .batchesHi => 0x9E
  | .bestLen => 0x9F
  | .cfgBmax => 0xA8
  | .cfgNidxmax => 0xA9

/-- The word address of a target (R71). -/
def Target.addr : Target → Nat
  | .limb r k => 8 * r.val + k.val
  | .ctrl c => c.addr
  | .context n => 0x88 + n.val
  | .bestProof k => 0xA0 + k.val
  | .cand i => 0x20000000 + i
  | .bestIdx i => 0x40000000 + i

/-- The targets that exist: a word of an index memory lies below `NIDX_MAX` (R71). -/
def Target.Mapped (cfg : Config) : Target → Prop
  | .cand i => i < cfg.nidxMax
  | .bestIdx i => i < cfg.nidxMax
  | .limb _ _ | .ctrl _ | .context _ | .bestProof _ => True

theorem ctrlRegAt_addr (c : CtrlReg) : ctrlRegAt c.addr = some c := by cases c <;> rfl

theorem addr_of_ctrlRegAt {a : Nat} {c : CtrlReg} (h : ctrlRegAt a = some c) : a = c.addr := by
  unfold ctrlRegAt at h
  split at h <;> cases h <;> rfl

/-- The control registers stand between the limbs, the context words and `BEST_PROOF`. -/
theorem CtrlReg.addr_range (c : CtrlReg) :
    0x80 ≤ c.addr ∧ c.addr < 0xAA ∧ (c.addr < 0x88 ∨ 0x98 ≤ c.addr) ∧ (c.addr < 0xA0 ∨ 0xA8 ≤ c.addr) := by
  cases c <;> decide

/-- An address names only the target that has it. -/
theorem addr_of_resolve {cfg : Config} {a : Word} {tgt : Target} (h : resolve cfg a = some tgt) :
    a.toNat = tgt.addr := by
  simp only [resolve] at h
  split_ifs at h with hlimb hctx hproof hctrl hcand hbest
  · cases h; simp only [Target.addr]; omega
  · cases h; simp only [Target.addr]; omega
  · cases h; simp only [Target.addr]; omega
  · obtain ⟨c, hc, rfl⟩ := Option.map_eq_some_iff.mp h
    exact addr_of_ctrlRegAt hc
  · cases h; simp only [Target.addr, candBase] at *; omega
  · cases h; simp only [Target.addr, bestIdxBase] at *; omega

/-- Every target that exists is what its address names: no two targets overlap. -/
theorem resolve_of_addr {cfg : Config} {a : Word} {tgt : Target} (hmapped : tgt.Mapped cfg) (ha : a.toNat = tgt.addr) :
    resolve cfg a = some tgt := by
  have hsize := nidxMax_range cfg
  have hcandBase : candBase = 0x20000000 := rfl
  have hbestIdxBase : bestIdxBase = 0x40000000 := rfl
  cases tgt with
  | limb r k =>
    simp only [Target.addr] at ha
    simp only [resolve]
    rw [dif_pos (by omega)]
    simp only [Option.some.injEq, Target.limb.injEq, Fin.ext_iff]
    omega
  | context n =>
    simp only [Target.addr] at ha
    simp only [resolve]
    rw [dif_neg (by omega), dif_pos (by omega)]
    simp only [Option.some.injEq, Target.context.injEq, Fin.ext_iff]
    omega
  | bestProof k =>
    simp only [Target.addr] at ha
    simp only [resolve]
    rw [dif_neg (by omega), dif_neg (by omega), dif_pos (by omega)]
    simp only [Option.some.injEq, Target.bestProof.injEq, Fin.ext_iff]
    omega
  | ctrl c =>
    obtain ⟨hlow, hhigh, hctx, hproof⟩ := c.addr_range
    simp only [Target.addr] at ha
    simp only [resolve]
    rw [dif_neg (by omega), dif_neg (by omega), dif_neg (by omega), if_pos (by omega), ha, ctrlRegAt_addr,
      Option.map_some]
  | cand i =>
    simp only [Target.addr, Target.Mapped] at ha hmapped
    simp only [resolve]
    rw [dif_neg (by omega), dif_neg (by omega), dif_neg (by omega), if_neg (by omega), if_pos (by omega)]
    simp only [Option.some.injEq, Target.cand.injEq]
    omega
  | bestIdx i =>
    simp only [Target.addr, Target.Mapped] at ha hmapped
    simp only [resolve]
    rw [dif_neg (by omega), dif_neg (by omega), dif_neg (by omega), if_neg (by omega), if_neg (by omega),
      if_pos (by omega)]
    simp only [Option.some.injEq, Target.bestIdx.injEq]
    omega

theorem Target.addr_lt {cfg : Config} {tgt : Target} (hmapped : tgt.Mapped cfg) : tgt.addr < 2 ^ 32 := by
  have hsize := nidxMax_range cfg
  cases tgt with
  | ctrl c => have := c.addr_range; simp only [Target.addr]; omega
  | _ => simp only [Target.addr, Target.Mapped] at *; omega

theorem resolve_ofNat_addr {cfg : Config} {tgt : Target} (hmapped : tgt.Mapped cfg) :
    resolve cfg (BitVec.ofNat 32 tgt.addr) = some tgt :=
  resolve_of_addr hmapped (by rw [BitVec.toNat_ofNat, Nat.mod_eq_of_lt (Target.addr_lt hmapped)])

/-! ### Reads of mapped addresses (R72) -/

theorem hostRead_of_resolve {cfg : Config} {a : Word} {tgt : Target} (ha : resolve cfg a = some tgt) (s : State) :
    hostRead cfg a s = { s with rdata := readTarget cfg s tgt } := by
  simp only [hostRead, ha]

/-- The step on a read of a target that exists. -/
theorem step_read {s : State} {rest : List Event} {tgt : Target} {x : Word} (hmapped : tgt.Mapped Config.machine)
    (hx : readTarget Config.machine s tgt = x) (h : s.inputs = .host (.rd (BitVec.ofNat 32 tgt.addr)) :: rest) :
    step s = .next { s with inputs := rest, rdata := x } := by
  have hread := hostRead_of_resolve (resolve_ofNat_addr hmapped) { s with inputs := rest }
  have hsame : readTarget Config.machine { s with inputs := rest } tgt = x := by rw [← hx]; cases tgt <;> rfl
  simp only [step, takeStep, h, react, hread, hsame]

/-- `STATUS` as a number: the code of `STATE`, and 4 for `WARN` (R29). -/
theorem statusWord_eq_ofNat (s : State) :
    statusWord s = BitVec.ofNat 32 ((schedCode s.sched).toNat + (if s.warn then 4 else 0)) := by
  unfold statusWord
  cases s.sched <;> cases s.warn <;> rfl

/-- `FLAGS` as a number: `CARRY`, and twice the code of `CMP` (R25). -/
theorem flagsWord_eq_ofNat (s : State) :
    flagsWord s = BitVec.ofNat 32 ((if s.carry then 1 else 0) + 2 * (cmpCode s.cmp).toNat) := by
  unfold flagsWord
  cases s.cmp <;> cases s.carry <;> rfl

/-- Settles O12, target by target: each address is the target's, and the word read is the target's word. -/
theorem readsFollowRegisterMap : Obligations.ReadsFollowRegisterMap := by
  intro s rest
  refine ⟨fun r k => step_read (tgt := .limb r k) trivial rfl, step_read (tgt := .ctrl .cmd) trivial rfl,
    step_read (tgt := .ctrl .status) trivial ?status, step_read (tgt := .ctrl .err) trivial ?err,
    step_read (tgt := .ctrl .errinfo) trivial rfl, step_read (tgt := .ctrl .flags) trivial ?flags,
    step_read (tgt := .ctrl .scalar) trivial rfl,
    step_read (tgt := .ctrl .approxLo) trivial rfl, step_read (tgt := .ctrl .approxHi) trivial rfl,
    fun n => step_read (tgt := .context n) trivial rfl,
    step_read (tgt := .ctrl .periodLo) trivial rfl, step_read (tgt := .ctrl .periodHi) trivial rfl,
    step_read (tgt := .ctrl .batchB) trivial rfl, step_read (tgt := .ctrl .rngSeed) trivial rfl,
    step_read (tgt := .ctrl .ctxValid) trivial ?ctxValid,
    step_read (tgt := .ctrl .batchesLo) trivial rfl, step_read (tgt := .ctrl .batchesHi) trivial rfl,
    step_read (tgt := .ctrl .bestLen) trivial rfl, fun k => step_read (tgt := .bestProof k) trivial rfl,
    step_read (tgt := .ctrl .cfgBmax) trivial rfl, step_read (tgt := .ctrl .cfgNidxmax) trivial rfl,
    fun i hi => step_read (tgt := .cand i) hi rfl, fun i hi => step_read (tgt := .bestIdx i) hi rfl⟩
  case status =>
    refine (statusWord_eq_ofNat s).trans ?_
    cases s.sched <;> rfl
  case err => exact (BitVec.ofNat_toNat 32 s.err).symm
  case flags =>
    refine (flagsWord_eq_ofNat s).trans ?_
    cases s.cmp <;> rfl
  case ctxValid => exact (BitVec.ofNat_toNat 32 s.ctxValid).symm

/-! ### Performed writes (R73) -/

theorem hostWrite_of_resolve {cfg : Config} {a : Word} {tgt : Target} {s : State} (ha : resolve cfg a = some tgt)
    (hwritable : tgt.readOnly = false) (hcmd : tgt ≠ .ctrl .cmd) (hs : s.sched ≠ .searching ∨ tgt = .ctrl .err)
    (w : Word) :
    hostWrite cfg a w s = .next (storeTarget cfg w s tgt) := by
  have hfree : ¬ (s.sched = .searching ∧ tgt ≠ .ctrl .err) := by tauto
  simp [hostWrite, ha, hwritable, hfree, performWrite, hcmd]

/-- The step on a write that is performed, at a target other than `CMD`. -/
theorem step_store {s : State} {rest : List Event} {tgt : Target} {w : Word} (hmapped : tgt.Mapped Config.machine)
    (hwritable : tgt.readOnly = false) (hcmd : tgt ≠ .ctrl .cmd) (hs : s.sched ≠ .searching ∨ tgt = .ctrl .err)
    (h : s.inputs = .host (.wr (BitVec.ofNat 32 tgt.addr) w) :: rest) :
    step s = .next (storeTarget Config.machine w { s with inputs := rest } tgt) := by
  simp only [step, takeStep, h, react]
  exact hostWrite_of_resolve (s := { s with inputs := rest }) (resolve_ofNat_addr hmapped) hwritable hcmd hs w

/-- Settles O11: `ERR` is the one target that is writable in every `STATE`. -/
theorem errClearPerformed : Obligations.ErrClearPerformed :=
  fun _ _ _ h => step_store (tgt := .ctrl .err) trivial rfl (by decide) (.inr rfl) h

/-! ### Replacing one limb (R12, R22) -/

theorem limbsToNat_lt (ls : List Word) : limbsToNat ls < 2 ^ (32 * ls.length) := by
  induction ls with
  | nil => simp [limbsToNat]
  | cons l ls ih =>
    have hl := l.isLt
    simp only [limbsToNat, List.length_cons, Nat.mul_add, Nat.pow_add]
    omega

/-- The digits of the number that a limb list stands for are the limbs. -/
theorem limbsToNat_digit (ls : List Word) {k : Nat} (hk : k < ls.length) :
    limbsToNat ls / 2 ^ (32 * k) % 2 ^ 32 = ls[k].toNat := by
  induction ls generalizing k with
  | nil => exact absurd hk (Nat.not_lt_zero k)
  | cons l ls ih =>
    have hl := l.isLt
    cases k with
    | zero => simp only [limbsToNat, List.getElem_cons_zero]; omega
    | succ k =>
      have htail : limbsToNat (l :: ls) / 2 ^ 32 = limbsToNat ls := by simp only [limbsToNat]; omega
      rw [show 32 * (k + 1) = 32 + 32 * k by omega, Nat.pow_add, ← Nat.div_div_eq_div_mul, htail,
        List.getElem_cons_succ]
      exact ih (by simpa using hk)

/-- The limbs of the `U256` that eight limbs make are these limbs. -/
theorem limb_ofLimbs8 {ls : List Word} (hlen : ls.length = 8) {k : Nat} (hk : k < 8) :
    limb (ofLimbs8 ls) k = ls[k] := by
  have hlt : limbsToNat ls < 2 ^ 256 := by simpa [hlen] using limbsToNat_lt ls
  apply BitVec.eq_of_toNat_eq
  rw [limb, BitVec.extractLsb'_toNat, ofLimbs8, BitVec.toNat_ofNat, Nat.mod_eq_of_lt hlt, Nat.shiftRight_eq_div_pow]
  exact limbsToNat_digit ls (by omega)

theorem getElem_limbs8 (x : U256) (k : Fin 8) : (limbs8 x)[k.val]'k.isLt = limb x k.val := by
  fin_cases k <;> rfl

theorem limb_setLimb (x : U256) (j k : Fin 8) (w : Word) :
    limb (setLimb x k.val w) j.val = if j = k then w else limb x j.val := by
  have hlen : ((limbs8 x).set k.val w).length = 8 := List.length_set
  rw [setLimb, limb_ofLimbs8 hlen j.isLt, List.getElem_set]
  simp only [Fin.ext_iff, eq_comm (a := k.val)]
  exact if_congr Iff.rfl rfl (getElem_limbs8 x j)

/-- Settles O14: the write is a `setV` of the register with one limb replaced. -/
theorem limbWriteReplacesOneLimb : Obligations.LimbWriteReplacesOneLimb := by
  intro s rest w r k hs h
  refine ⟨_, step_store (tgt := .limb r k) trivial rfl nofun (.inl hs) h, rfl, fun q hq => ?_, fun j => ?_⟩
  · exact State.v_setV_ne _ hq.symm _
  · change limb (State.v (State.setV _ r _) r) j.val = _
    rw [State.v_setV_self]
    exact limb_setLimb _ j k w

/-- Settles O15: a read after a write, in a memory whose indices rise. -/
theorem candWriteChangesOneWord : Obligations.CandWriteChangesOneWord := by
  intro s rest w i hs hi hwf h
  refine ⟨_, step_store (tgt := .cand i) hi rfl nofun (.inl hs) h, rfl, fun j => ?_⟩
  exact memRead_memWrite _ (memWf_rising hwf) i j w

/-! ### What a command and a host write can do, on the result -/

/-- A command records `CFG`, or has its effect (R101, R108). -/
theorem exec_next {i : Instr} {s t : State} (h : exec i s = .next t) :
    t = commandEffect Config.machine i s ∨ t = raiseError .cfg (cfgInfo Config.machine i s) s := by
  rw [exec_eq_checked] at h
  obtain ⟨-, rfl⟩ | ⟨-, rfl⟩ := checked_next h
  · exact .inl rfl
  · exact .inr rfl

/-- A host write records an error, or is a command's effect, or a store; while Searching the only store is to `ERR`
(R73). -/
theorem hostWrite_result {a w : Word} {s t : State} (h : hostWrite Config.machine a w s = .next t) :
    (∃ e info, t = raiseError e info s) ∨
    (s.sched ≠ .searching ∧ a = 0x80#32 ∧ ∃ i, decode w = .ok i ∧ t = commandEffect Config.machine i s) ∨
    (∃ tgt, a.toNat = tgt.addr ∧ (s.sched ≠ .searching ∨ tgt = .ctrl .err) ∧
      t = storeTarget Config.machine w s tgt) := by
  obtain rfl | ⟨-, rfl⟩ | ⟨hs, ha, hrun⟩ | ⟨tgt, ha, -, -, hs, rfl⟩ := hostWrite_next h
  · exact .inl ⟨_, _, rfl⟩
  · exact .inl ⟨_, _, rfl⟩
  · obtain ⟨-, rfl⟩ | ⟨i, hi, hexec⟩ := runCommand_next hrun
    · exact .inl ⟨_, _, rfl⟩
    obtain rfl | rfl := exec_next hexec
    · exact .inr (.inl ⟨hs, BitVec.eq_of_toNat_eq (addr_of_resolve ha), i, hi, rfl⟩)
    · exact .inl ⟨_, _, rfl⟩
  · exact .inr (.inr ⟨tgt, addr_of_resolve ha, hs, rfl⟩)

/-- Every step but a reset is the scheduler's, a read, a write or a clock event, on the state with the event taken off
the queue (R14). -/
theorem step_next_of_not_reset {s t : State} (h : step s = .next t) (hreset : ∀ rest, s.inputs ≠ .reset :: rest) :
    (∃ q, t = schedulerStep Config.machine { s with inputs := q }) ∨
    (∃ q a, t = hostRead Config.machine a { s with inputs := q }) ∨
    (∃ rest a w, s.inputs = .host (.wr a w) :: rest ∧
      hostWrite Config.machine a w { s with inputs := rest } = .next t) ∨
    (∃ rest c, s.inputs = .clock c :: rest ∧ t = advanceClock c { s with inputs := rest }) := by
  obtain ⟨-, rfl⟩ | ⟨rest, a, -, rfl⟩ | hwrite | ⟨rest, -, rfl⟩ | hclock | ⟨rest, hi, -⟩ := takeStep_next h
  · exact .inl ⟨s.inputs, rfl⟩
  · exact .inr (.inl ⟨rest, a, rfl⟩)
  · exact .inr (.inr (.inl hwrite))
  · exact .inl ⟨rest, rfl⟩
  · exact .inr (.inr (.inr hclock))
  · exact absurd hi (hreset rest)

/-! ### Frames: what each operation may change, the rest being as it was -/

theorem hostRead_cases (cfg : Config) (a : Word) (s : State) :
    hostRead cfg a s = { raiseError .access a s with rdata := 0 } ∨ ∃ x, hostRead cfg a s = { s with rdata := x } := by
  unfold hostRead
  split
  · exact .inl rfl
  · exact .inr ⟨_, rfl⟩

theorem reduceBatch_frame (cfg : Config) (run : List Lane) (s : State) :
    let t := reduceBatch cfg run s
    t = { s with bestProof := t.bestProof, bestLen := t.bestLen, bestIdx := t.bestIdx } := by
  obtain heq | ⟨l, -, -, heq⟩ := reduceBatch_cases cfg run s
  · simp only [heq]
  · simp only [heq]

/-- The scheduler changes the results, the lanes, `STATUS`, `PHASE` and its count of batch steps (R226, R229). -/
theorem schedulerStep_frame (cfg : Config) (s : State) :
    let t := schedulerStep cfg s
    t = { s with
      lanes := t.lanes, sched := t.sched, phase := t.phase, warn := t.warn, batches := t.batches
      bestProof := t.bestProof, bestLen := t.bestLen, bestIdx := t.bestIdx, batchSteps := t.batchSteps } := by
  obtain ⟨-, -, heq⟩ | ⟨-, -, heq⟩ | ⟨-, heq⟩ := schedulerStep_cases cfg s
  · have hred := reduceBatch_frame cfg (batchRun cfg s) s
    simp only [heq, batchStep]
    rw [hred]
  · simp only [heq, checkStep]
    split <;> rfl
  · simp only [heq]

/-- A command changes its result, and `START` the state of the call (R102, R214, R222). -/
theorem commandEffect_frame (cfg : Config) (i : Instr) (s : State) :
    let t := commandEffect cfg i s
    t = { s with
      vregs := t.vregs, carry := t.carry, cmp := t.cmp, approx := t.approx, cand := t.cand, hostRng := t.hostRng
      deadline := t.deadline, bestProof := t.bestProof, bestLen := t.bestLen, batches := t.batches, warn := t.warn
      lanes := t.lanes, phase := t.phase, sched := t.sched } := by
  cases i <;> rfl

/-- A store changes a register that the host may write (R73). -/
theorem storeTarget_frame (cfg : Config) (w : Word) (s : State) (tgt : Target) :
    let t := storeTarget cfg w s tgt
    t = { s with
      vregs := t.vregs, err := t.err, scalar := t.scalar, context := t.context, ctxValid := t.ctxValid
      period := t.period, batchB := t.batchB, rngSeed := t.rngSeed, hostRng := t.hostRng, cand := t.cand } := by
  cases tgt with
  | ctrl c => cases c <;> rfl
  | _ => rfl

/-- What the host's stores and commands give the block, and neither the scheduler, a read nor the clock changes
(R54, R73, R226). -/
structure HostState where
  context : Context
  ctxValid : BitVec 16
  batchB : Word
  rngSeed : Word
  vregs : Vector U256 16
  carry : Bool
  cmp : Cmp
  scalar : Word
  approx : U64
  cand : WordMem
  period : U64
  hostRng : RngState
  deadline : Int

/-- The host's part of the state. -/
def State.hostState (s : State) : HostState := { s with }

theorem hostRead_hostState (cfg : Config) (a : Word) (s : State) : (hostRead cfg a s).hostState = s.hostState := by
  obtain h | ⟨x, h⟩ := hostRead_cases cfg a s <;> rw [h] <;> rfl

theorem advanceClock_hostState (c : U64) (s : State) : (advanceClock c s).hostState = s.hostState := by
  obtain ⟨-, h⟩ | ⟨-, h⟩ := advanceClock_cases c s <;> rw [h]
  rfl

theorem schedulerStep_hostState (cfg : Config) (s : State) : (schedulerStep cfg s).hostState = s.hostState := by
  rw [schedulerStep_frame]
  rfl

/-- A host write changes the host's state by a command or a store only, and only outside Searching (R73, R265). -/
theorem hostWrite_hostState {a w : Word} {s t : State} (h : hostWrite Config.machine a w s = .next t) :
    t.hostState = s.hostState ∨
    (s.sched ≠ .searching ∧ a = 0x80#32 ∧ ∃ i, decode w = .ok i ∧ t = commandEffect Config.machine i s) ∨
    (s.sched ≠ .searching ∧ ∃ tgt, t = storeTarget Config.machine w s tgt) := by
  obtain ⟨e, info, rfl⟩ | hcommand | ⟨tgt, -, hs | rfl, rfl⟩ := hostWrite_result h
  · exact .inl rfl
  · exact .inr (.inl hcommand)
  · exact .inr (.inr ⟨hs, tgt, rfl⟩)
  · exact .inl rfl

/-- A step but a reset changes the host's state only by a command or a store of the host, outside Searching. -/
theorem step_hostState {s t : State} (h : step s = .next t) (hreset : ∀ rest, s.inputs ≠ .reset :: rest) :
    t.hostState = s.hostState ∨
    (s.sched ≠ .searching ∧ ∃ rest w i, s.inputs = .host (.wr 0x80#32 w) :: rest ∧ decode w = .ok i ∧
      t = commandEffect Config.machine i { s with inputs := rest }) ∨
    (s.sched ≠ .searching ∧ ∃ rest w tgt, t = storeTarget Config.machine w { s with inputs := rest } tgt) := by
  obtain ⟨q, rfl⟩ | ⟨q, a, rfl⟩ | ⟨rest, a, w, hi, hw⟩ | ⟨rest, c, -, rfl⟩ := step_next_of_not_reset h hreset
  · exact .inl (schedulerStep_hostState _ _)
  · exact .inl (hostRead_hostState _ _ _)
  · obtain hsame | ⟨hs, rfl, i, hdec, rfl⟩ | ⟨hs, tgt, rfl⟩ := hostWrite_hostState hw
    · exact .inl hsame
    · exact .inr (.inl ⟨hs, rest, w, i, hi, hdec, rfl⟩)
    · exact .inr (.inr ⟨hs, rest, w, tgt, rfl⟩)
  · exact .inl (advanceClock_hostState _ _)

/-- Settles O45: while Searching neither a command nor a store is performed, but for the one to `ERR`. -/
theorem searchLeavesHostStateAlone : Obligations.SearchLeavesHostStateAlone := by
  intro s t hs h hreset
  obtain hsame | ⟨hs', -⟩ | ⟨hs', -⟩ := step_hostState h hreset
  · simpa only [State.hostState, HostState.mk.injEq] using hsame
  · exact absurd hs hs'
  · exact absurd hs hs'

/-! ### Valid bits and flags -/

theorem and_or_self_left {n : Nat} (x y : BitVec n) : x &&& (x ||| y) = x := by
  ext i hi
  simpa using Or.inl

/-- A store sets a valid bit or leaves them all (R38). -/
theorem storeTarget_ctxValid (cfg : Config) (w : Word) (s : State) (tgt : Target) :
    ∃ bit, (storeTarget cfg w s tgt).ctxValid = s.ctxValid ||| bit := by
  cases tgt with
  | context n => exact ⟨_, rfl⟩
  | ctrl c => exact ⟨0, by cases c <;> exact (BitVec.or_zero ..).symm⟩
  | _ => exact ⟨0, (BitVec.or_zero ..).symm⟩

/-- Settles O49: of the host's accesses only the store of a context word writes `CTX_VALID`, and it sets a bit. -/
theorem validBitsPersist : Obligations.ValidBitsPersist := by
  intro s t h hreset
  obtain hsame | ⟨-, rest, w, i, -, -, rfl⟩ | ⟨-, rest, w, tgt, rfl⟩ := step_hostState h hreset
  · rw [show t.ctxValid = s.ctxValid from congrArg HostState.ctxValid hsame, BitVec.and_self]
  · rw [commandEffect_frame]
    exact BitVec.and_self
  · obtain ⟨bit, hbit⟩ := storeTarget_ctxValid Config.machine w { s with inputs := rest } tgt
    rw [hbit]
    exact and_or_self_left _ _

/-- `CARRY` is written by the two additions only (R25). -/
theorem add_of_commandEffect_carry_ne {cfg : Config} {i : Instr} {s : State}
    (h : (commandEffect cfg i s).carry ≠ s.carry) : (∃ rd ra rb, i = .vadd rd ra rb) ∨ ∃ rd ra, i = .vadds rd ra := by
  cases i with
  | vadd rd ra rb => exact .inl ⟨rd, ra, rb, rfl⟩
  | vadds rd ra => exact .inr ⟨rd, ra, rfl⟩
  | _ => exact absurd rfl h

/-- `CMP` is written by the comparison only (R25). -/
theorem vcmp_of_commandEffect_cmp_ne {cfg : Config} {i : Instr} {s : State}
    (h : (commandEffect cfg i s).cmp ≠ s.cmp) : ∃ ra rb, i = .vcmp ra rb := by
  cases i with
  | vcmp ra rb => exact ⟨ra, rb, rfl⟩
  | _ => exact absurd rfl h

/-- Settles O50: a change of a flag leaves only the case of a command, and of the commands only those that write it. -/
theorem flagsWrittenOnlyByTheirCommands : Obligations.FlagsWrittenOnlyByTheirCommands := by
  intro s t h hreset
  obtain hsame | ⟨-, rest, w, i, hi, hdec, rfl⟩ | ⟨-, rest, w, tgt, rfl⟩ := step_hostState h hreset
  · exact ⟨fun hne => absurd (congrArg HostState.carry hsame) hne, fun hne => absurd (congrArg HostState.cmp hsame) hne⟩
  · refine ⟨fun hne => ⟨rest, w, hi, ?_⟩, fun hne => ⟨rest, w, hi, ?_⟩⟩
    · obtain ⟨rd, ra, rb, rfl⟩ | ⟨rd, ra, rfl⟩ := add_of_commandEffect_carry_ne hne
      · exact .inl ⟨rd, ra, rb, hdec⟩
      · exact .inr ⟨rd, ra, hdec⟩
    · obtain ⟨ra, rb, rfl⟩ := vcmp_of_commandEffect_cmp_ne hne
      exact ⟨ra, rb, hdec⟩
  · rw [storeTarget_frame]
    exact ⟨fun hne => absurd rfl hne, fun hne => absurd rfl hne⟩

/-! ### Error bits (R262, R269) -/

/-- `ERR` is as before, or has the bit of one error more. -/
def GainsAtMostOneError (before after : BitVec 4) : Prop :=
  after = before ∨ ∃ e : ErrorKind, after = before ||| errorBit e

theorem hostRead_err (cfg : Config) (a : Word) (s : State) : GainsAtMostOneError s.err (hostRead cfg a s).err := by
  obtain h | ⟨x, h⟩ := hostRead_cases cfg a s <;> rw [h]
  · exact .inr ⟨.access, rfl⟩
  · exact .inl rfl

theorem advanceClock_err (c : U64) (s : State) : (advanceClock c s).err = s.err := by
  obtain ⟨-, h⟩ | ⟨-, h⟩ := advanceClock_cases c s <;> rw [h]

theorem storeTarget_err {tgt : Target} (htgt : tgt ≠ .ctrl .err) (cfg : Config) (w : Word) (s : State) :
    (storeTarget cfg w s tgt).err = s.err := by
  cases tgt with
  | ctrl c =>
    cases c with
    | err => exact absurd rfl htgt
    | _ => rfl
  | _ => rfl

/-- A write at an address other than that of `ERR` clears no error. -/
theorem hostWrite_err {a w : Word} {s t : State} (h : hostWrite Config.machine a w s = .next t) (ha : a ≠ 0x82#32) :
    GainsAtMostOneError s.err t.err := by
  obtain ⟨e, info, rfl⟩ | ⟨-, -, i, -, rfl⟩ | ⟨tgt, haddr, -, rfl⟩ := hostWrite_result h
  · exact .inr ⟨e, rfl⟩
  · rw [commandEffect_frame]
    exact .inl rfl
  · have htgt : tgt ≠ .ctrl .err := by
      rintro rfl
      exact ha (BitVec.eq_of_toNat_eq haddr)
    exact .inl (storeTarget_err htgt _ _ _)

theorem step_err {s t : State} (h : step s = .next t) (hreset : ∀ rest, s.inputs ≠ .reset :: rest)
    (hclear : ∀ rest w, s.inputs ≠ .host (.wr 0x82#32 w) :: rest) : GainsAtMostOneError s.err t.err := by
  obtain ⟨q, rfl⟩ | ⟨q, a, rfl⟩ | ⟨rest, a, w, hi, hw⟩ | ⟨rest, c, -, rfl⟩ := step_next_of_not_reset h hreset
  · rw [schedulerStep_frame]
    exact .inl rfl
  · exact hostRead_err Config.machine a { s with inputs := q }
  · have ha : a ≠ 0x82#32 := by
      rintro rfl
      exact hclear rest w hi
    exact hostWrite_err (s := { s with inputs := rest }) hw ha
  · exact .inl (advanceClock_err c { s with inputs := rest })

/-- Settles O48: an error is raised by setting its bit. -/
theorem errorBitsSticky : Obligations.ErrorBitsSticky := by
  intro s t h hreset hclear
  obtain hsame | ⟨e, he⟩ := step_err h hreset hclear
  · exact ⟨by rw [hsame, BitVec.and_self], .inl hsame⟩
  · refine ⟨by rw [he, and_or_self_left], .inr ⟨errorBit e, ?_, he⟩⟩
    cases e <;> decide

/-! ### The time input (R58) -/

theorem hostRead_now (cfg : Config) (a : Word) (s : State) : (hostRead cfg a s).now = s.now := by
  obtain h | ⟨x, h⟩ := hostRead_cases cfg a s <;> rw [h]
  rfl

theorem hostWrite_now {a w : Word} {s t : State} (h : hostWrite Config.machine a w s = .next t) : t.now = s.now := by
  obtain ⟨e, info, rfl⟩ | ⟨-, -, i, -, rfl⟩ | ⟨tgt, -, -, rfl⟩ := hostWrite_result h
  · rfl
  · rw [commandEffect_frame]
  · rw [storeTarget_frame]

/-- Over a step the time stays, or is that of a clock event and no earlier (R58, log entry 10). -/
theorem step_now {s t : State} (h : step s = .next t) :
    t.now = s.now ∨ ∃ rest c, s.inputs = .clock c :: rest ∧ t.now = c ∧ s.now ≤ c := by
  have hsched (q : List Event) : (schedulerStep Config.machine { s with inputs := q }).now = s.now := by
    rw [schedulerStep_frame]
  obtain ⟨-, rfl⟩ | ⟨rest, a, -, rfl⟩ | ⟨rest, a, w, -, hw⟩ | ⟨rest, -, rfl⟩ | ⟨rest, c, hi, rfl⟩ | ⟨rest, -, rfl⟩ :=
    takeStep_next h
  · exact .inl (hsched s.inputs)
  · exact .inl (hostRead_now _ _ _)
  · exact .inl (hostWrite_now (s := { s with inputs := rest }) hw)
  · exact .inl (hsched rest)
  · obtain ⟨hle, hclock⟩ | ⟨-, hclock⟩ := advanceClock_cases c { s with inputs := rest } <;> rw [hclock]
    · exact .inr ⟨rest, c, hi, rfl, hle⟩
    · exact .inl rfl
  · exact .inl rfl

/-- The step on a clock event. -/
theorem step_clock {s : State} {rest : List Event} {c : U64} (h : s.inputs = .clock c :: rest) :
    step s = .next (advanceClock c { s with inputs := rest }) := by
  simp only [step, takeStep, h, react]

/-- Settles O59: a clock event by the two cases of `advanceClock`, every step by `step_now`. -/
theorem timeChangesByClockEventsOnly : Obligations.TimeChangesByClockEventsOnly := by
  refine ⟨fun s rest c hi => ?_, fun s t h => ?_⟩
  · rw [step_clock hi]
    obtain ⟨hle, hclock⟩ | ⟨hlt, hclock⟩ := advanceClock_cases c { s with inputs := rest } <;> rw [hclock]
    · exact ⟨fun _ => rfl, fun hlt => absurd hlt (Nat.not_lt.mpr (BitVec.le_def.mp hle))⟩
    · exact ⟨fun hle => absurd hle (Nat.not_le.mpr (BitVec.lt_def.mp hlt)), fun _ => rfl⟩
  · obtain hsame | ⟨rest, c, hi, hnow, hle⟩ := step_now h
    · exact ⟨hsame ▸ Nat.le_refl _, fun hne => absurd hsame hne⟩
    · exact ⟨hnow ▸ BitVec.le_def.mp hle, fun _ => ⟨rest, c, hi, hnow⟩⟩

/-! ### The candidate after a rewritten seed (R47, R214) -/

/-- `GEN` passes its check with `MAX_INDICES` written and within the limit (R108, R214). -/
theorem contextOk_gen {cfg : Config} {s : State} (hvalid : s.ctxValid.getLsbD 7 = true)
    (hlimit : (maxIndices s.context).toNat ≤ cfg.nidxMax) : contextOk cfg .gen s = true := by
  refine contextOk_iff.mpr ⟨?_, by simp [overLimit, hlimit]⟩
  change BitVec.twoPow 16 7 &&& ~~~s.ctxValid = 0
  simp [BitVec.twoPow_and, hvalid]

/-- The step on a write of `GEN` to `CMD` that is performed. -/
theorem step_gen {s : State} {rest : List Event} (hs : s.sched ≠ .searching) (hvalid : s.ctxValid.getLsbD 7 = true)
    (hlimit : (maxIndices s.context).toNat ≤ Config.machine.nidxMax)
    (h : s.inputs = .host (.wr 0x80#32 0x30000000#32) :: rest) :
    step s = .next (genPerformed Config.machine { s with inputs := rest }) := by
  have hdec : decode 0x30000000#32 = .ok .gen := rfl
  have haddr : resolve Config.machine 0x80#32 = some (.ctrl .cmd) := rfl
  have hgen : exec .gen { s with inputs := rest } = .next (genPerformed Config.machine { s with inputs := rest }) := by
    rw [exec_eq_checked]
    exact checked_of_ok (contextOk_gen hvalid hlimit)
  simpa [step, takeStep, h, react, hostWrite, haddr, Target.readOnly, hs, performWrite, runCommand, hdec] using hgen

/-- The words of `CAND` that `GEN` writes are the generated sequence (R214). -/
theorem readCand_genPerformed {cfg : Config} {s : State} (hwf : memWf (coldCand cfg s) cfg.nidxMax s.cand = true)
    {i : Nat} (hi : i < (maxIndices s.context).toNat) :
    readCand cfg (genPerformed cfg s) i = (generate cfg (maxIndices s.context).toNat s.hostRng).1.getD i 0 := by
  have hlen : (generate cfg (maxIndices s.context).toNat s.hostRng).1.length = (maxIndices s.context).toNat :=
    generateFrom_length _ _ _ _
  have hread := memRead_memWriteFrom (coldCand cfg s) (generate cfg (maxIndices s.context).toNat s.hostRng).1
    (memWf_rising hwf) 0 i
  rwa [if_pos (by omega), Nat.sub_zero] at hread

/-- The state after a performed write of `w` to `RNG_SEED`, with the events `rest` still to come (R47, R73). -/
def State.reseed (cfg : Config) (s : State) (w : Word) (rest : List Event) : State :=
  { s with inputs := rest, rngSeed := w, hostRng := cfg.rngInit w cfg.bMax }

theorem step_reseed {s : State} {rest : List Event} {w : Word} (hs : s.sched ≠ .searching)
    (h : s.inputs = .host (.wr 0x9B#32 w) :: rest) : step s = .next (s.reseed Config.machine w rest) :=
  step_store (tgt := .ctrl .rngSeed) trivial rfl (by decide) (.inl hs) h

/-- After `WR RNG_SEED, w` and `GEN`, `CAND` holds the sequence of the stream that `w` starts, whatever else the state
was. -/
theorem readCand_of_reseed_gen {s t : State} {w : Word} (hs : s.sched ≠ .searching)
    (hvalid : s.ctxValid.getLsbD 7 = true) (hlimit : (maxIndices s.context).toNat ≤ Config.machine.nidxMax)
    (hwf : memWf (coldCand Config.machine s) Config.machine.nidxMax s.cand = true)
    (hi : s.inputs = [.host (.wr 0x9B#32 w), .host (.wr 0x80#32 0x30000000#32)])
    (hrun : Host.Core.run Sys2Proof.core 2 s = .next t) {i : Nat} (hlt : i < (maxIndices s.context).toNat) :
    readCand Config.machine t i = (generate Config.machine (maxIndices s.context).toNat
      (Config.machine.rngInit w Config.machine.bMax)).1.getD i 0 := by
  have hseed := step_reseed hs hi
  have hgen : step (s.reseed Config.machine w [.host (.wr 0x80#32 0x30000000#32)]) =
      .next (genPerformed Config.machine (s.reseed Config.machine w [])) := step_gen hs hvalid hlimit rfl
  have ht : genPerformed Config.machine (s.reseed Config.machine w []) = t := by
    simpa only [Host.Core.run, Sys2Proof.core, hseed, hgen, Host.Outcome.next.injEq] using hrun
  rw [← ht]
  exact readCand_genPerformed (s := s.reseed Config.machine w []) hwf hlt

/-- Settles O51: both candidates are the sequence of the stream that the seed starts. -/
theorem seedRewriteRepeatsCandidate : Obligations.SeedRewriteRepeatsCandidate := by
  intro s s' t t' w hs hs' hmax hlimit hwf hwf' hvalid hvalid' hi hi' hrun hrun' i hlt
  change maxIndices s.context = maxIndices s'.context at hmax
  change (maxIndices s.context).toNat ≤ _ at hlimit
  change i < (maxIndices s.context).toNat at hlt
  have hread := readCand_of_reseed_gen hs hvalid hlimit hwf hi hrun hlt
  rw [hmax] at hlimit hlt hread
  exact hread.trans (readCand_of_reseed_gen hs' hvalid' hlimit hwf' hi' hrun' hlt).symm

/-! ### The canonical form is unique (log entry 8) -/

/-- Indices that rise from `lo`, and no entry that its unwritten index would read as. -/
def Canonical (cold : Nat → Word) (lo : Nat) (m : WordMem) : Prop :=
  memRising lo m = true ∧ ∀ c ∈ m, c.2 ≠ cold c.1

theorem canonical_of_memWf {cold : Nat → Word} {size : Nat} {m : WordMem} (h : memWf cold size m = true) :
    Canonical cold 0 m := by
  refine ⟨memWf_rising h, fun c hc => ?_⟩
  simp only [memWf, Bool.and_eq_true, List.all_eq_true, decide_eq_true_eq] at h
  exact (h.2 c hc).2

theorem canonical_cons {cold : Nat → Word} {lo a : Nat} {x : Word} {m : WordMem} (h : Canonical cold lo ((a, x) :: m)) :
    x ≠ cold a ∧ Canonical cold (a + 1) m := by
  obtain ⟨hrising, hall⟩ := h
  simp only [memRising, Bool.and_eq_true] at hrising
  exact ⟨hall (a, x) List.mem_cons_self, hrising.2, fun c hc => hall c (List.mem_cons_of_mem _ hc)⟩

/-- A memory that reads like a canonical one whose first entry is at `a` has an entry at or below `a`. -/
theorem not_memRising_of_memRead_eq {cold : Nat → Word} {lo a : Nat} {x : Word} {m m' : WordMem}
    (hm : Canonical cold lo ((a, x) :: m)) (hread : ∀ i, memRead cold ((a, x) :: m) i = memRead cold m' i) :
    ¬ memRising (a + 1) m' = true := by
  intro hrising
  have hcold : memRead cold m' a = cold a := memRead_of_lt cold hrising (Nat.lt_succ_self a)
  rw [← hread a] at hcold
  exact (canonical_cons hm).1 (by simpa [memRead] using hcold)

theorem first_le_of_memRead_eq {cold : Nat → Word} {lo lo' a b : Nat} {x y : Word} {m m' : WordMem}
    (hm : Canonical cold lo ((a, x) :: m)) (hm' : Canonical cold lo' ((b, y) :: m'))
    (hread : ∀ i, memRead cold ((a, x) :: m) i = memRead cold ((b, y) :: m') i) : b ≤ a := by
  have hnot := not_memRising_of_memRead_eq hm hread
  obtain ⟨-, htail, -⟩ := canonical_cons hm'
  by_contra hlt
  exact hnot (by simp only [memRising, htail, Bool.and_true, decide_eq_true_eq]; omega)

/-- Two canonical memories that read alike have the same first entry, and then the same rest. -/
theorem eq_of_memRead_eq {cold : Nat → Word} {lo lo' : Nat} {m m' : WordMem} (hm : Canonical cold lo m)
    (hm' : Canonical cold lo' m') (hread : ∀ i, memRead cold m i = memRead cold m' i) : m = m' := by
  induction m generalizing lo lo' m' with
  | nil =>
    cases m' with
    | nil => rfl
    | cons c m' => exact absurd rfl (not_memRising_of_memRead_eq hm' fun i => (hread i).symm)
  | cons c m ih =>
    cases m' with
    | nil => exact absurd rfl (not_memRising_of_memRead_eq hm hread)
    | cons c' m' =>
      obtain ⟨a, x⟩ := c
      obtain ⟨b, y⟩ := c'
      obtain rfl : a = b :=
        Nat.le_antisymm (first_le_of_memRead_eq hm' hm fun i => (hread i).symm) (first_le_of_memRead_eq hm hm' hread)
      obtain rfl : x = y := by simpa [memRead] using hread a
      obtain ⟨-, htail⟩ := canonical_cons hm
      obtain ⟨-, htail'⟩ := canonical_cons hm'
      have hrest (i : Nat) : memRead cold m i = memRead cold m' i := by
        by_cases hi : i = a
        · rw [memRead_of_lt cold htail.1 (by omega), memRead_of_lt cold htail'.1 (by omega)]
        · simpa [memRead, hi] using hread i
      rw [ih htail htail' hrest]

/-- Settles O55, by induction over the entries of both memories. -/
theorem canonicalMemoriesEqual : Obligations.CanonicalMemoriesEqual :=
  fun _ _ _ _ hm hm' hread => eq_of_memRead_eq (canonical_of_memWf hm) (canonical_of_memWf hm') hread

/-! ### The reset state -/

/-- Settles O57: each value is that of a field of `State.powerOn`. -/
theorem resetStateValues : Obligations.ResetStateValues :=
  ⟨rfl, rfl, rfl, rfl, rfl, rfl, rfl, rfl, rfl, rfl, rfl, rfl, rfl⟩

end Sys2Proof.Machine
end

section
/-! The statement on host writes to the control and context registers, from the rule of a performed write. -/

namespace Sys2Proof.Machine

/-- Settles O13, target by target: each address is the target's, and the state reached is what `storeTarget` leaves. -/
theorem writesFollowRegisterMap : Obligations.WritesFollowRegisterMap := by
  intro s rest w hs
  refine ⟨?scalar, ?context, ?periodLo, ?periodHi, ?batchB, ?rngSeed⟩
  case scalar => exact step_store (tgt := .ctrl .scalar) trivial rfl (by decide) (.inl hs)
  case context => exact fun n => step_store (tgt := .context n) trivial rfl nofun (.inl hs)
  case periodLo => exact step_store (tgt := .ctrl .periodLo) trivial rfl (by decide) (.inl hs)
  case periodHi => exact step_store (tgt := .ctrl .periodHi) trivial rfl (by decide) (.inl hs)
  case batchB => exact step_store (tgt := .ctrl .batchB) trivial rfl (by decide) (.inl hs)
  case rngSeed => exact step_reseed hs

end Sys2Proof.Machine
end

section
/-! The statements on the encoding. First the fields of a packed word; then the operands of a command, with which the
encoder is one equation; then the decoder as the inverse of the encoder, and the match and mask table as its range;
last, the formula of R105, the step on a command, and sample words. -/

namespace Sys2Proof

/-! ### The fields of a word (R100) -/

/-- A packed word at the width its fields add up to, at which the laws of `++` apply. -/
theorem extractLsb'_packWord (op : BitVec 8) (rd ra rb : VReg) (start len : Nat) :
    (packWord op rd ra rb).extractLsb' start len = BitVec.extractLsb' (n := 8 + 12 + 4 + 4 + 4) start len
      (op ++ 0#12 ++ (BitVec.ofFin rd : BitVec 4) ++ (BitVec.ofFin ra : BitVec 4) ++ (BitVec.ofFin rb : BitVec 4)) :=
  rfl

section Fields

variable (op : BitVec 8) (rd ra rb : VReg)

@[simp] theorem fieldOp_packWord : fieldOp (packWord op rd ra rb) = op := by
  simp [fieldOp, extractLsb'_packWord, BitVec.extractLsb'_append_eq_ite, -Nat.reduceAdd]

@[simp] theorem fieldZ_packWord : fieldZ (packWord op rd ra rb) = 0 := by
  simp [fieldZ, extractLsb'_packWord, BitVec.extractLsb'_append_eq_ite, -Nat.reduceAdd]

@[simp] theorem fieldRd_packWord : fieldRd (packWord op rd ra rb) = rd := by
  simp [fieldRd, extractLsb'_packWord, BitVec.extractLsb'_append_eq_ite, -Nat.reduceAdd]

@[simp] theorem fieldRa_packWord : fieldRa (packWord op rd ra rb) = ra := by
  simp [fieldRa, extractLsb'_packWord, BitVec.extractLsb'_append_eq_ite, -Nat.reduceAdd]

@[simp] theorem fieldRb_packWord : fieldRb (packWord op rd ra rb) = rb := by
  simp [fieldRb, extractLsb'_packWord, BitVec.extractLsb'_append_eq_ite, -Nat.reduceAdd]

end Fields

/-- A word whose must-be-zero field is zero is its other four fields, packed. -/
theorem packWord_fields {w : Word} (hz : fieldZ w = 0) :
    packWord (fieldOp w) (fieldRd w) (fieldRa w) (fieldRb w) = w := by
  have hz : w.extractLsb' 12 12 = 0#12 := hz
  calc packWord (fieldOp w) (fieldRd w) (fieldRa w) (fieldRb w)
    _ = w.extractLsb' 24 8 ++ w.extractLsb' 12 12 ++ w.extractLsb' 8 4 ++ w.extractLsb' 4 4 ++ w.extractLsb' 0 4 := by
      rw [hz]
      rfl
    _ = w.extractLsb' 0 (8 + 12 + 4 + 4 + 4) := by
      iterate 4 rw [BitVec.extractLsb'_append_extractLsb'_eq_extractLsb' (by decide)]
    _ = w := BitVec.extractLsb'_eq_self

/-! ### The operands of a command (R103, R105) -/

/-- The field `rd` of a command, 0 where its format has none. -/
def Instr.rd : Instr → VReg
  | .vzero rd | .vones rd | .seed rd | .eval rd | .combine rd => rd
  | .vcopy rd _ | .vadds rd _ | .hstep rd _ => rd
  | .vadd rd _ _ | .vmul rd _ _ | .vxor rd _ _ => rd
  | .nop | .vcmp _ _ | .vapprox _ | .gen | .start => 0

/-- The field `ra` of a command, 0 where its format has none. -/
def Instr.ra : Instr → VReg
  | .vcopy _ ra | .vadds _ ra | .hstep _ ra | .vapprox ra => ra
  | .vadd _ ra _ | .vmul _ ra _ | .vxor _ ra _ | .vcmp ra _ => ra
  | .nop | .vzero _ | .vones _ | .seed _ | .eval _ | .combine _ | .gen | .start => 0

/-- The field `rb` of a command, 0 where its format has none. -/
def Instr.rb : Instr → VReg
  | .vadd _ _ rb | .vmul _ _ rb | .vxor _ _ rb | .vcmp _ rb => rb
  | .nop | .vzero _ | .vones _ | .vcopy _ _ | .vadds _ _ | .vapprox _ | .hstep _ _ | .seed _ | .eval _ | .combine _
  | .gen | .start => 0

/-- The encoder as one equation for all 16 commands. -/
theorem encode_eq_packWord (i : Instr) : encode i = packWord (opcode i) i.rd i.ra i.rb := by
  cases i <;> rfl

/-- The word `w` has the opcode and the operands of `i`, and zero in every other field. -/
def FieldsAre (w : Word) (i : Instr) : Prop :=
  fieldZ w = 0 ∧ fieldOp w = opcode i ∧ fieldRd w = i.rd ∧ fieldRa w = i.ra ∧ fieldRb w = i.rb

theorem fieldsAre_encode (i : Instr) : FieldsAre (encode i) i := by
  simp [FieldsAre, encode_eq_packWord]

theorem encode_of_fieldsAre {w : Word} {i : Instr} (h : FieldsAre w i) : encode i = w := by
  obtain ⟨hz, hop, hrd, hra, hrb⟩ := h
  rw [encode_eq_packWord, ← hop, ← hrd, ← hra, ← hrb, packWord_fields hz]

/-! ### The decoder is the inverse of the encoder (R109) -/

@[simp] theorem unusedZero_eq_ok {zero : Bool} {i j : Instr} : unusedZero zero i = .ok j ↔ zero = true ∧ i = j := by
  cases zero <;> simp [unusedZero]

/-- The arm 17 of the decoder is an unassigned opcode; the arms 5, 7 and 8 have format DAB, which leaves no field to
check; each other arm has passed its check of the unused fields. -/
theorem fieldsAre_of_decode {w : Word} {i : Instr} (h : decode w = .ok i) : FieldsAre w i := by
  unfold decode at h
  split at h
  · cases h
  next hz =>
    have hz : fieldZ w = 0 := by simpa using hz
    split at h
    case h_17 => cases h
    case h_5 hop | h_7 hop | h_8 hop =>
      cases h
      exact ⟨hz, BitVec.eq_of_toNat_eq hop, rfl, rfl, rfl⟩
    all_goals
      rename_i hop
      obtain ⟨hzero, rfl⟩ := unusedZero_eq_ok.mp h
      simp only [Bool.and_eq_true, decide_eq_true_eq] at hzero
      exact ⟨hz, BitVec.eq_of_toNat_eq hop, by simp [hzero, Instr.rd, Instr.ra, Instr.rb]⟩

theorem decode_of_fieldsAre {w : Word} {i : Instr} (h : FieldsAre w i) : decode w = .ok i := by
  obtain ⟨hz, hop, hrd, hra, hrb⟩ := h
  cases i <;> simp [decode, hz, hop, hrd, hra, hrb, opcode, Instr.rd, Instr.ra, Instr.rb]

/-- The legal words are the encodings of the commands. -/
theorem decode_eq_ok_iff {w : Word} {i : Instr} : decode w = .ok i ↔ encode i = w := by
  refine ⟨fun h => encode_of_fieldsAre (fieldsAre_of_decode h), ?_⟩
  rintro rfl
  exact decode_of_fieldsAre (fieldsAre_encode i)

/-- Settles O1: the fields of an encoding are the command's. -/
theorem decodeOfEncode : Obligations.DecodeOfEncode :=
  fun _ => decode_eq_ok_iff.mpr rfl

/-- Settles O2: a word that decodes has no bit beside the fields of its command. -/
theorem encodeOfDecode : Obligations.EncodeOfDecode :=
  fun _ _ => decode_eq_ok_iff.mp

/-! ### The match and mask table (R103, R105, R106) -/

/-- Whether a format has the field `rd`. -/
def Format.hasRd : Format → Bool
  | .D | .DA | .DAB => true
  | .Z | .AB | .A => false

/-- Whether a format has the field `ra`. -/
def Format.hasRa : Format → Bool
  | .DA | .DAB | .AB | .A => true
  | .Z | .D => false

/-- Whether a format has the field `rb`. -/
def Format.hasRb : Format → Bool
  | .DAB | .AB => true
  | .Z | .D | .DA | .A => false

/-- Bits that a mask keeps are those of the masked word. -/
theorem extractLsb'_of_masked {w m p : Word} {start len : Nat} (h : w &&& m = p)
    (hm : m.extractLsb' start len = BitVec.allOnes len) : w.extractLsb' start len = p.extractLsb' start len := by
  rw [← h, BitVec.extractLsb'_and, hm, BitVec.and_allOnes]

/-- A word that has the opcode `op` alone under the mask of a format has that opcode, and zero in every field that the
format does not have. -/
theorem fields_of_masked {w : Word} {f : Format} {op : BitVec 8} (h : w &&& f.mask = op ++ 0#24) :
    fieldZ w = 0 ∧ fieldOp w = op ∧ (f.hasRd = false → fieldRd w = 0) ∧ (f.hasRa = false → fieldRa w = 0) ∧
      (f.hasRb = false → fieldRb w = 0) := by
  have hlow {start len : Nat} (hle : start + len ≤ 24) (hm : f.mask.extractLsb' start len = BitVec.allOnes len) :
      w.extractLsb' start len = 0#len := by
    rw [extractLsb'_of_masked h hm, BitVec.extractLsb'_append_eq_of_add_le hle, BitVec.extractLsb'_zero]
  refine ⟨?z, ?op, fun hrd => ?rd, fun hra => ?ra, fun hrb => ?rb⟩
  case z => exact hlow (by decide) (by cases f <;> rfl)
  case op => exact (extractLsb'_of_masked h (by cases f <;> rfl)).trans BitVec.extractLsb'_append_eq_left
  case rd => exact congrArg BitVec.toFin (hlow (by decide) (by revert hrd; cases f <;> decide))
  case ra => exact congrArg BitVec.toFin (hlow (by decide) (by revert hra; cases f <;> decide))
  case rb => exact congrArg BitVec.toFin (hlow (by decide) (by revert hrb; cases f <;> decide))

/-- The 16 commands in the order of the opcode map, on the given operands as far as each has them. -/
def commandsOn (rd ra rb : VReg) : List Instr :=
  [.nop, .vzero rd, .vones rd, .vcopy rd ra, .vadd rd ra rb, .vadds rd ra, .vmul rd ra rb, .vxor rd ra rb, .vcmp ra rb,
    .vapprox ra, .hstep rd ra, .seed rd, .eval rd, .combine rd, .gen, .start]

theorem mem_commandsOn (i : Instr) : i ∈ commandsOn i.rd i.ra i.rb := by
  cases i <;> simp [commandsOn, Instr.rd, Instr.ra, Instr.rb]

/-- The opcode map, row by row, from the format and the opcode of each command. -/
theorem opcodeMap_eq_commandsOn (rd ra rb : VReg) :
    opcodeMap.map (fun row => (row.format, row.pattern)) =
      (commandsOn rd ra rb).map (fun i => (i.format, opcode i ++ 0#24)) := by
  simp only [opcodeMap, commandsOn, List.map_cons, List.map_nil, Instr.format, opcode]
  decide

theorem operands_of_mem_commandsOn {rd ra rb : VReg} {i : Instr} (h : i ∈ commandsOn rd ra rb) :
    i.rd = (if i.format.hasRd then rd else 0) ∧ i.ra = (if i.format.hasRa then ra else 0) ∧
      i.rb = (if i.format.hasRb then rb else 0) := by
  revert i
  simp [commandsOn, Instr.rd, Instr.ra, Instr.rb, Instr.format, Format.hasRd, Format.hasRa, Format.hasRb]

/-- A word fits a row of the opcode map exactly when, masked by a command's format, it has the command's opcode
alone. -/
theorem wordWellFormed_iff (rd ra rb : VReg) (w : Word) :
    wordWellFormed w = true ↔ ∃ i ∈ commandsOn rd ra rb, w &&& i.format.mask = opcode i ++ 0#24 := by
  calc wordWellFormed w = true
    _ ↔ ∃ p ∈ opcodeMap.map fun row => (row.format, row.pattern), w &&& p.1.mask = p.2 := by
      simp [wordWellFormed, OpcodeRow.fits]
    _ ↔ ∃ i ∈ commandsOn rd ra rb, w &&& i.format.mask = opcode i ++ 0#24 := by
      simp [opcodeMap_eq_commandsOn rd ra rb]

/-- A field that is zero where the format does not have it is the field or zero, by the format. -/
theorem eq_ite_of_false_imp {has : Bool} {r : VReg} (h : has = false → r = 0) : r = if has then r else 0 := by
  cases has with
  | false => exact h rfl
  | true => rfl

/-- A word that fits the row of a command on the word's own fields is the encoding of that command. -/
theorem encode_of_masked {w : Word} {i : Instr} (hi : i ∈ commandsOn (fieldRd w) (fieldRa w) (fieldRb w))
    (h : w &&& i.format.mask = opcode i ++ 0#24) : encode i = w := by
  obtain ⟨hz, hop, hrd, hra, hrb⟩ := fields_of_masked h
  obtain ⟨hird, hira, hirb⟩ := operands_of_mem_commandsOn hi
  exact encode_of_fieldsAre ⟨hz, hop, (eq_ite_of_false_imp hrd).trans hird.symm,
    (eq_ite_of_false_imp hra).trans hira.symm, (eq_ite_of_false_imp hrb).trans hirb.symm⟩

/-- The encoding of every command has the opcode alone under the mask of its format. -/
theorem encode_masked (i : Instr) : encode i &&& i.format.mask = opcode i ++ 0#24 := by
  cases i with
  | nop => exact Laws.EncodingInRow.nop
  | vzero rd => exact Laws.EncodingInRow.vzero rd
  | vones rd => exact Laws.EncodingInRow.vones rd
  | vcopy rd ra => exact Laws.EncodingInRow.vcopy rd ra
  | vadd rd ra rb => exact Laws.EncodingInRow.vadd rd ra rb
  | vadds rd ra => exact Laws.EncodingInRow.vadds rd ra
  | vmul rd ra rb => exact Laws.EncodingInRow.vmul rd ra rb
  | vxor rd ra rb => exact Laws.EncodingInRow.vxor rd ra rb
  | vcmp ra rb => exact Laws.EncodingInRow.vcmp ra rb
  | vapprox ra => exact Laws.EncodingInRow.vapprox ra
  | hstep rd ra => exact Laws.EncodingInRow.hstep rd ra
  | seed rd => exact Laws.EncodingInRow.seed rd
  | eval rd => exact Laws.EncodingInRow.eval rd
  | combine rd => exact Laws.EncodingInRow.combine rd
  | gen => exact Laws.EncodingInRow.gen
  | start => exact Laws.EncodingInRow.start

/-- Settles O3: a decoded word fits the row of its command; a word that fits a row is the encoding of the row's command
on the word's own fields. -/
theorem decoderAgreesWithOpcodeMap : Obligations.DecoderAgreesWithOpcodeMap := by
  intro w
  constructor
  · rintro ⟨i, hi⟩
    obtain rfl := decode_eq_ok_iff.mp hi
    exact (wordWellFormed_iff i.rd i.ra i.rb _).mpr ⟨i, mem_commandsOn i, encode_masked i⟩
  · intro hw
    obtain ⟨i, hi, hmasked⟩ := (wordWellFormed_iff (fieldRd w) (fieldRa w) (fieldRb w) w).mp hw
    exact ⟨i, decode_eq_ok_iff.mpr (encode_of_masked hi hmasked)⟩

/-! ### The formula for the words of commands (R105) -/

/-- Words that have the opcode or one operand each have no bit in common: their or is the fields side by side. -/
theorem or_eq_append (op : BitVec 8) (rd ra rb : BitVec 4) :
    (op ++ 0#12 ++ 0#4 ++ 0#4 ++ 0#4) ||| (0#8 ++ 0#12 ++ rd ++ 0#4 ++ 0#4) ||| (0#8 ++ 0#12 ++ 0#4 ++ ra ++ 0#4) |||
      (0#8 ++ 0#12 ++ 0#4 ++ 0#4 ++ rb) = op ++ 0#12 ++ rd ++ ra ++ rb := by
  simp only [BitVec.or_append, BitVec.or_zero, BitVec.zero_or]

/-- The formula by shifts gives the packed fields: each shifted operand is a word with one field. -/
theorem commandWord_eq_packWord (op : BitVec 8) (rd ra rb : VReg) :
    Machine.commandWord (op ++ 0#24) rd ra rb = packWord op rd ra rb := by
  have hop : op ++ 0#24 = packWord op 0 0 0 := by revert op; decide
  have hrd : BitVec.ofNat 32 rd.val <<< 8 = packWord 0 rd 0 0 := by revert rd; decide
  have hra : BitVec.ofNat 32 ra.val <<< 4 = packWord 0 0 ra 0 := by revert ra; decide
  have hrb : BitVec.ofNat 32 rb.val = packWord 0 0 0 rb := by revert rb; decide
  rw [Machine.commandWord, hop, hrd, hra, hrb]
  exact or_eq_append op (.ofFin rd) (.ofFin ra) (.ofFin rb)

/-- Settles O4: the packed fields by the formula, where the match word of each row is its opcode above zeros. -/
theorem encodingFormula : Obligations.EncodingFormula := by
  intro rd ra rb
  simp only [encode, ← commandWord_eq_packWord, opcode]
  simp

/-! ### The decoded command is the step (R101) -/

namespace Machine

/-- A write to `CMD` outside Searching runs the word (R73, case 4). -/
theorem hostWrite_cmd (cfg : Config) {s : State} (hs : s.sched ≠ .searching) (w : Word) :
    hostWrite cfg cmdAddr w s = runCommand w s := by
  have haddr : resolve cfg cmdAddr = some (.ctrl .cmd) := rfl
  simp [hostWrite, haddr, Target.readOnly, hs, performWrite]

theorem runCommand_of_decode {w : Word} {i : Instr} (h : decode w = .ok i) (s : State) : runCommand w s = exec i s := by
  simp only [runCommand, h]

/-- Settles O6: the write at the head of the queue reaches `CMD`, and `CMD` runs what the word decodes to. -/
theorem stepRunsDecodedCommand : Obligations.StepRunsDecodedCommand := by
  intro s rest w i hi hs hdec
  calc step s
    _ = hostWrite Config.machine cmdAddr w { s with inputs := rest } := by
      simp only [step, takeStep, hi, react, cmdAddr]
    _ = runCommand w { s with inputs := rest } := hostWrite_cmd (s := { s with inputs := rest }) _ hs w
    _ = exec i { s with inputs := rest } := runCommand_of_decode hdec _

end Machine

/-! ### Sample words (R105, R106) -/

/-- Settles O5: the decoder on each word. -/
theorem sampleWordsDecode : Obligations.SampleWordsDecode :=
  ⟨rfl, rfl, rfl, rfl, rfl, rfl, rfl, rfl, rfl, rfl, rfl⟩

end Sys2Proof
end

section
/-! The statements on the arithmetic unit and on the commands of 40_biguint256.md. First what each limb algorithm
computes, as an equation on the numbers that limb lists of any length stand for; then the laws of the 256-bit operations,
as these equations at eight or four limbs; last the commands. -/

namespace Sys2Proof.Machine

/-! ### The numbers of the limbs (R12) -/

@[simp] theorem length_limbs8 (x : U256) : (limbs8 x).length = 8 := rfl

theorem limbsToNat_limbs8 (x : U256) : limbsToNat (limbs8 x) = x.toNat := by
  have hx := x.isLt
  simp only [limbs8, limb, limbsToNat, BitVec.extractLsb'_toNat, Nat.shiftRight_eq_div_pow]
  omega

theorem limbsToNat_limbs4 (x : U128) : limbsToNat (limbs4 x) = x.toNat := by
  have hx := x.isLt
  simp only [limbs4, limbsToNat, BitVec.extractLsb'_toNat, Nat.shiftRight_eq_div_pow]
  omega

theorem toNat_ofLimbs8 {ls : List Word} (hlen : ls.length = 8) : (ofLimbs8 ls).toNat = limbsToNat ls := by
  have hlt : limbsToNat ls < 2 ^ 256 := by simpa [hlen] using limbsToNat_lt ls
  rw [ofLimbs8, BitVec.toNat_ofNat, Nat.mod_eq_of_lt hlt]

theorem toNat_lo128 (x : U256) : (lo128 x).toNat = x.toNat % 2 ^ 128 := by
  rw [lo128, BitVec.extractLsb'_toNat, Nat.shiftRight_zero]

/-! ### Addition (R140, R141) -/

theorem length_rippleAdd {as bs : List Word} (hlen : as.length = bs.length) (c : Nat) :
    (rippleAdd as bs c).1.length = as.length := by
  induction as generalizing bs c with
  | nil => rfl
  | cons a as ih =>
    cases bs with
    | nil => cases hlen
    | cons b bs => exact congrArg (· + 1) (ih (Nat.succ.inj hlen) _)

/-- The limbs of the sum and, above them, the carry out are the sum of the numbers and the carry in. -/
theorem rippleAdd_exact {as bs : List Word} (hlen : as.length = bs.length) (c : Nat) :
    limbsToNat (rippleAdd as bs c).1 + 2 ^ (32 * as.length) * (rippleAdd as bs c).2 =
      limbsToNat as + limbsToNat bs + c := by
  induction as generalizing bs c with
  | nil =>
    obtain rfl := List.length_eq_zero_iff.mp hlen.symm
    simp [rippleAdd, limbsToNat]
  | cons a as ih =>
    cases bs with
    | nil => cases hlen
    | cons b bs =>
      have hrest := ih (Nat.succ.inj hlen) ((a.toNat + b.toNat + c) / 2 ^ 32)
      simp only [rippleAdd, limbsToNat, List.length_cons, BitVec.toNat_ofNat, Nat.mul_succ, Nat.pow_add',
        Nat.mul_assoc]
      omega

/-- Settles O16: eight limbs are below `2^256`, so the carry out is 0 or 1. -/
theorem addLaw : Obligations.AddLaw := by
  intro a b
  have ha := a.isLt
  have hb := b.isLt
  have hlen : (limbs8 a).length = (limbs8 b).length := by simp
  have hsum := rippleAdd_exact hlen 0
  rw [limbsToNat_limbs8, limbsToNat_limbs8, ← toNat_ofLimbs8 (length_rippleAdd hlen 0), length_limbs8] at hsum
  have hbit : ∀ c ≤ 1, (c == 1).toNat = c := by decide
  simp only [add256]
  rw [hbit _ (by omega)]
  omega

theorem add256_fst (a b : U256) : (add256 a b).1 = BitVec.ofNat 256 ((a.toNat + b.toNat) % 2 ^ 256) := by
  apply BitVec.eq_of_toNat_eq
  have hlt := (add256 a b).1.isLt
  rw [addLaw a b, Nat.mul_add_mod_self_right, BitVec.toNat_ofNat, Nat.mod_mod, Nat.mod_eq_of_lt hlt]

theorem add256_snd (a b : U256) : (add256 a b).2 = decide (2 ^ 256 ≤ a.toNat + b.toNat) := by
  have hlt := (add256 a b).1.isLt
  rw [addLaw a b]
  cases (add256 a b).2 with
  | false => simpa using hlt
  | true => simp

/-! ### Multiplication (R142, R143) -/

theorem length_mulRow {bs ps : List Word} (hlen : ps.length = bs.length) (a : Word) (c : Nat) :
    (mulRow a bs ps c).length = bs.length + 1 := by
  induction bs generalizing ps c with
  | nil => rfl
  | cons b bs ih =>
    cases ps with
    | nil => cases hlen
    | cons p ps => exact congrArg (· + 1) (ih (Nat.succ.inj hlen) _)

/-- The inner loop adds the product with one limb to the window. The carry is one limb at every column. -/
theorem mulRow_exact {bs ps : List Word} (hlen : ps.length = bs.length) (a : Word) {c : Nat} (hc : c < 2 ^ 32) :
    limbsToNat (mulRow a bs ps c) = limbsToNat ps + a.toNat * limbsToNat bs + c := by
  induction bs generalizing ps c with
  | nil =>
    obtain rfl := List.length_eq_zero_iff.mp hlen
    simpa [mulRow, limbsToNat] using hc
  | cons b bs ih =>
    cases ps with
    | nil => cases hlen
    | cons p ps =>
      have hab : a.toNat * b.toNat ≤ (2 ^ 32 - 1) * (2 ^ 32 - 1) :=
        Nat.mul_le_mul (Nat.le_pred_of_lt a.isLt) (Nat.le_pred_of_lt b.isLt)
      have hp := p.isLt
      have hcarry : (p.toNat + a.toNat * b.toNat + c) / 2 ^ 32 < 2 ^ 32 := by omega
      have hrest := ih (Nat.succ.inj hlen) hcarry
      simp only [mulRow, limbsToNat, BitVec.toNat_ofNat, hrest, Nat.mul_add, Nat.mul_left_comm a.toNat]
      omega

/-- The outer loop adds the product of the numbers to the window. -/
theorem mulRows_exact (as : List Word) {bs ps : List Word} (hlen : ps.length = bs.length) :
    (mulRows as bs ps).length = as.length + bs.length ∧
      limbsToNat (mulRows as bs ps) = limbsToNat ps + limbsToNat as * limbsToNat bs := by
  induction as generalizing ps with
  | nil => simp [mulRows, limbsToNat, hlen]
  | cons a as ih =>
    have hrowLen := length_mulRow hlen a 0
    have hrow := mulRow_exact hlen a (c := 0) (by decide)
    rw [mulRows]
    cases hq : mulRow a bs ps 0 with
    | nil => simp [hq] at hrowLen
    | cons q qs =>
      rw [hq] at hrowLen hrow
      obtain ⟨hqsLen, hqs⟩ := ih (Nat.succ.inj hrowLen)
      simp only [limbsToNat, List.length_cons] at hrow ⊢
      refine ⟨by omega, ?_⟩
      rw [hqs, Nat.add_mul, Nat.mul_add, Nat.mul_assoc]
      omega

theorem toNat_widenMul4 (a b : U128) : (widenMul4 a b).toNat = a.toNat * b.toNat := by
  obtain ⟨hlen, hmul⟩ := mulRows_exact (limbs4 a) (bs := limbs4 b) (ps := [0, 0, 0, 0]) rfl
  rw [widenMul4, toNat_ofLimbs8 hlen, hmul, limbsToNat_limbs4, limbsToNat_limbs4]
  simp [limbsToNat]

/-- Settles O18: the high half is that of a product of two numbers of at most `2^128 - 1`. -/
theorem multiplyLaw : Obligations.MultiplyLaw := by
  intro a b
  refine ⟨toNat_widenMul4 a b, ?_⟩
  have hab : a.toNat * b.toNat ≤ (2 ^ 128 - 1) * (2 ^ 128 - 1) :=
    Nat.mul_le_mul (Nat.le_pred_of_lt a.isLt) (Nat.le_pred_of_lt b.isLt)
  rw [hi128, BitVec.extractLsb'_toNat, toNat_widenMul4, Nat.shiftRight_eq_div_pow]
  omega

/-! ### Comparison (R144) -/

/-- The comparison of two numbers. -/
def cmpNat (m n : Nat) : Cmp := if m < n then .less else if n < m then .greater else .equal

theorem cmpNat_of_lt {m n : Nat} (h : m < n) : cmpNat m n = .less := if_pos h

theorem cmpNat_of_gt {m n : Nat} (h : n < m) : cmpNat m n = .greater := by simp [cmpNat, h, h.not_gt]

theorem cmpNat_self (n : Nat) : cmpNat n n = .equal := by simp [cmpNat]

/-- The comparison of two numbers with equality asked before Greater. -/
theorem cmpNat_eq_ite (m n : Nat) :
    cmpNat m n = if m < n then .less else if m = n then .equal else .greater := by
  obtain hmn | rfl | hnm := Nat.lt_trichotomy m n
  · simp [cmpNat_of_lt hmn, hmn]
  · simp [cmpNat_self]
  · simp [cmpNat_of_gt hnm, hnm.not_gt, hnm.ne']

/-- Of two numbers the upper parts decide, and where these are equal the lowest limbs. -/
theorem cmpNat_limb (a b : Word) (m n : Nat) :
    cmpNat (a.toNat + 2 ^ 32 * m) (b.toNat + 2 ^ 32 * n) =
      if cmpNat m n = .equal then cmpNat a.toNat b.toNat else cmpNat m n := by
  have ha := a.isLt
  have hb := b.isLt
  obtain hmn | rfl | hnm := Nat.lt_trichotomy m n
  · rw [cmpNat_of_lt hmn, cmpNat_of_lt (by omega)]
    rfl
  · simp [cmpNat]
  · rw [cmpNat_of_gt hnm, cmpNat_of_gt (by omega)]
    rfl

/-- The first limbs decide, and where these are equal the rest. -/
theorem cmpLimbs_cons (a b : Word) (as bs : List Word) :
    cmpLimbs (a :: as) (b :: bs) =
      if cmpNat a.toNat b.toNat = .equal then cmpLimbs as bs else cmpNat a.toNat b.toNat := by
  obtain hab | hab | hba := Nat.lt_trichotomy a.toNat b.toNat
  · simp [cmpLimbs, BitVec.lt_def, cmpNat_of_lt hab, hab]
  · simp [cmpLimbs, BitVec.lt_def, cmpNat_self, hab]
  · simp [cmpLimbs, BitVec.lt_def, cmpNat_of_gt hba, hba, hba.not_gt]

theorem cmpLimbs_concat {as bs : List Word} (hlen : as.length = bs.length) (a b : Word) :
    cmpLimbs (as ++ [a]) (bs ++ [b]) =
      if cmpLimbs as bs = .equal then cmpNat a.toNat b.toNat else cmpLimbs as bs := by
  induction as generalizing bs with
  | nil =>
    obtain rfl := List.length_eq_zero_iff.mp hlen.symm
    rfl
  | cons x as ih =>
    cases bs with
    | nil => cases hlen
    | cons y bs =>
      rw [List.cons_append, List.cons_append, cmpLimbs_cons, cmpLimbs_cons, ih (Nat.succ.inj hlen)]
      by_cases hxy : cmpNat x.toNat y.toNat = .equal <;> simp [hxy]

/-- Limbs compared from the last to the first compare the numbers. -/
theorem cmpLimbs_reverse {as bs : List Word} (hlen : as.length = bs.length) :
    cmpLimbs as.reverse bs.reverse = cmpNat (limbsToNat as) (limbsToNat bs) := by
  induction as generalizing bs with
  | nil =>
    obtain rfl := List.length_eq_zero_iff.mp hlen.symm
    rfl
  | cons a as ih =>
    cases bs with
    | nil => cases hlen
    | cons b bs =>
      have hlen := Nat.succ.inj hlen
      rw [List.reverse_cons, List.reverse_cons, cmpLimbs_concat (by simpa using hlen), ih hlen, limbsToNat, limbsToNat,
        cmpNat_limb]

theorem cmp256_eq (a b : U256) : cmp256 a b = cmpNat a.toNat b.toNat := by
  have hlen : (limbs8 a).length = (limbs8 b).length := by simp
  rw [cmp256, cmpLimbs_reverse hlen, limbsToNat_limbs8, limbsToNat_limbs8]

/-- Settles O19: the comparison from limb 7 down to limb 0, at eight limbs. -/
theorem compareLaw : Obligations.CompareLaw :=
  cmp256_eq

/-! ### Commands -/

/-- The state that the effect of a command without a context check leaves is the next one (R101, R130). -/
theorem exec_of_need_zero {i : Instr} (hneed : need i = 0) (hlim : limited i = false) (s : State) :
    exec i s = .next (commandEffect Config.machine i s) := by
  rw [exec_eq_checked, checked_of_ok (contextOk_of_need_zero _ hneed hlim s)]

/-- Settles O23: the effect of `NOP` is none. -/
theorem nopChangesNothing : Obligations.NopChangesNothing :=
  ⟨rfl, exec_of_need_zero rfl rfl⟩

/-- Settles O24: each effect is a `setV`. -/
theorem moveAndXorResults : Obligations.MoveAndXorResults := by
  intro rd ra rb s
  obtain ⟨-, hzero, hones, hcopy, -, -, -, hxor, -⟩ := encodingFormula rd ra rb
  exact ⟨⟨hzero, exec_of_need_zero rfl rfl s⟩, ⟨hones, exec_of_need_zero rfl rfl s⟩,
    ⟨hcopy, exec_of_need_zero rfl rfl s⟩, ⟨hxor, exec_of_need_zero rfl rfl s⟩⟩

/-- Settles O25: the two components of `add256`. -/
theorem vaddResult : Obligations.VaddResult := by
  intro rd ra rb s
  obtain ⟨-, -, -, -, hencode, -⟩ := encodingFormula rd ra rb
  refine ⟨hencode, ?_⟩
  rw [← add256_fst, ← add256_snd]
  exact exec_of_need_zero rfl rfl s

/-- Settles O26: the extension of the scalar to 256 bits is the same number (R147). -/
theorem vaddsResult : Obligations.VaddsResult := by
  intro rd ra s
  obtain ⟨-, -, -, -, -, hencode, -⟩ := encodingFormula rd ra 0
  have hscalar : s.scalar.toNat = (s.scalar.setWidth 256).toNat := (BitVec.toNat_setWidth_of_le (by decide)).symm
  refine ⟨hencode, ?_⟩
  rw [hscalar, ← add256_fst, ← add256_snd]
  exact exec_of_need_zero rfl rfl s

/-- Settles O27: limbs 0 to 3 are the register modulo `2^128`. -/
theorem vmulResult : Obligations.VmulResult := by
  intro rd ra rb s
  obtain ⟨-, -, -, -, -, -, hencode, -⟩ := encodingFormula rd ra rb
  refine ⟨hencode, ?_⟩
  rw [← toNat_lo128, ← toNat_lo128, ← toNat_widenMul4, BitVec.ofNat_toNat, BitVec.setWidth_eq]
  exact exec_of_need_zero rfl rfl s

/-- Settles O28: the comparison is that of the numbers. -/
theorem vcmpResult : Obligations.VcmpResult := by
  intro ra rb s
  obtain ⟨-, -, -, -, -, -, -, -, hencode, -⟩ := encodingFormula 0 ra rb
  refine ⟨hencode, ?_⟩
  rw [← cmpNat_eq_ite, ← cmp256_eq]
  exact exec_of_need_zero rfl rfl s

/-- Settles O29: the effect of `VAPPROX` is one field. -/
theorem vapproxResult : Obligations.VapproxResult := by
  intro ra s
  obtain ⟨-, -, -, -, -, -, -, -, -, hencode, -⟩ := encodingFormula 0 ra 0
  exact ⟨hencode, exec_of_need_zero rfl rfl s⟩

end Sys2Proof.Machine
end

section
/-! The statements on the ratchet step of 41_hashstep.md. First the 4-limb add and the hash step, as equations on
numbers; then what a command does that needs context words but uses no index memory; last the command `HSTEP`. -/

namespace Sys2Proof.Machine

/-! ### The 4-limb add (R173) -/

theorem toNat_ofLimbs4 {ls : List Word} (hlen : ls.length = 4) : (ofLimbs4 ls).toNat = limbsToNat ls := by
  have hlt : limbsToNat ls < 2 ^ 128 := by simpa [hlen] using limbsToNat_lt ls
  rw [ofLimbs4, BitVec.toNat_ofNat, Nat.mod_eq_of_lt hlt]

@[simp] theorem length_limbs4 (x : U128) : (limbs4 x).length = 4 := rfl

/-- The sum and, above its four limbs, the carry out are the exact sum with the carry in. -/
theorem add4_exact (x y : U128) (cin : Nat) :
    (add4 x y cin).1.toNat + 2 ^ 128 * (add4 x y cin).2 = x.toNat + y.toNat + cin := by
  have hlen : (limbs4 x).length = (limbs4 y).length := by simp
  have hsum := rippleAdd_exact hlen cin
  rwa [limbsToNat_limbs4, limbsToNat_limbs4, length_limbs4, ← toNat_ofLimbs4 (length_rippleAdd hlen cin)] at hsum

/-- Settles O17: the sum is below `2^128`, so it is the remainder of the exact sum and the carry out is the quotient,
whatever the carry in. -/
theorem addFourLimbsLaw : Obligations.AddFourLimbsLaw := by
  intro x y cin _
  have hlt := (add4 x y cin).1.isLt
  rw [← add4_exact x y cin]
  omega

/-! ### The hash step (R172, R174) -/

theorem toNat_append_eq_add {m n : Nat} (x : BitVec m) (y : BitVec n) :
    (x ++ y).toNat = 2 ^ n * x.toNat + y.toNat := by
  rw [BitVec.toNat_append, ← Nat.shiftLeft_add_eq_or_of_lt y.isLt, Nat.shiftLeft_eq, Nat.mul_comm]

/-- The two halves of a number. -/
theorem toNat_eq_halves (x : U256) : x.toNat = 2 ^ 128 * (hi128 x).toNat + (lo128 x).toNat := by
  rw [← toNat_append_eq_add, hi128, lo128, BitVec.extractLsb'_append_extractLsb'_eq_extractLsb' (by decide),
    BitVec.extractLsb'_eq_self]

/-- The carry out of step 4, which the hash step discards. -/
def carry4 (x : U256) (c : U128) : Nat :=
  (add4 (hi128 (widenMul4 (lo128 x) c)) 0 (add4 (lo128 (widenMul4 (lo128 x) c)) (hi128 x) 0).2).2

/-- The five steps, with the carry of step 4 kept: the carry of step 3 is what the low halves add to the high half, so
the two adds together are one addition of `hi128(x)` to the product. -/
theorem hashStep_exact (x : U256) (c : U128) :
    (hashStep x c).toNat + 2 ^ 256 * carry4 x c = (lo128 x).toNat * c.toNat + (hi128 x).toNat := by
  have hproduct := toNat_eq_halves (widenMul4 (lo128 x) c)
  have hlow := add4_exact (lo128 (widenMul4 (lo128 x) c)) (hi128 x) 0
  have hhigh := add4_exact (hi128 (widenMul4 (lo128 x) c)) 0 (add4 (lo128 (widenMul4 (lo128 x) c)) (hi128 x) 0).2
  rw [toNat_widenMul4] at hproduct
  simp only [hashStep, carry4, toNat_append_eq_add, BitVec.ofNat_eq_ofNat, BitVec.toNat_ofNat] at hhigh ⊢
  omega

/-- The exact value fits: the high half of the product is at most `2^128 - 2` (R143). -/
theorem lo128_mul_add_hi128_lt (x : U256) (c : U128) : (lo128 x).toNat * c.toNat + (hi128 x).toNat < 2 ^ 256 := by
  obtain ⟨hproduct, hhigh⟩ := multiplyLaw (lo128 x) c
  have hlow := (lo128 (widenMul4 (lo128 x) c)).isLt
  have hadded := (hi128 x).isLt
  rw [← hproduct, toNat_eq_halves]
  omega

/-- Settles O20: the exact value is below `2^256`, so nothing is left for the carry of step 4. -/
theorem hashStepClosedForm : Obligations.HashStepClosedForm := by
  intro x c
  have hexact := hashStep_exact x c
  have hlt := lo128_mul_add_hi128_lt x c
  have hcarry : carry4 x c = 0 := by omega
  exact ⟨by simpa [hcarry] using hexact, hlt, hcarry⟩

/-! ### Commands that need context words and use no index memory (R101, R108) -/

theorem and_not_eq_zero_iff {n : Nat} (x y : BitVec n) : x &&& ~~~y = 0#n ↔ y &&& x = x := by
  simp only [BitVec.eq_of_getElem_eq_iff, BitVec.getElem_and, BitVec.getElem_not, BitVec.getElem_zero]
  refine forall₂_congr fun k _ => ?_
  cases x[k] <;> cases y[k] <;> decide

/-- The check passes exactly when every needed word has been written. -/
theorem contextOk_iff_of_not_limited {cfg : Config} {i : Instr} (hlim : limited i = false) (s : State) :
    contextOk cfg i s = true ↔ s.ctxValid &&& need i = need i := by
  simp [contextOk_iff, overLimit, hlim, and_not_eq_zero_iff]

/-- An opcode and a mask of context words have no bit in common: their or is the two side by side. -/
theorem opcode_or_words (op : BitVec 8) (m : BitVec 16) :
    (op ++ 0#24) ||| m.setWidth 32 = op ++ 0#7 ++ 0#1 ++ m := by
  have hop : op ++ 0#24 = op ++ 0#7 ++ 0#1 ++ 0#16 := by revert op; decide
  have hm : m.setWidth 32 = 0#8 ++ 0#7 ++ 0#1 ++ m := BitVec.setWidth_eq_append (by decide)
  have hor : (op ++ 0#7 ++ 0#1 ++ 0#16) ||| (0#8 ++ 0#7 ++ 0#1 ++ m) = op ++ 0#7 ++ 0#1 ++ m := by
    simp only [BitVec.or_append, BitVec.or_zero, BitVec.zero_or]
  rw [hop, hm]
  exact hor

/-- The information word has no `limit` bit. -/
theorem cfgInfo_of_not_limited {cfg : Config} {i : Instr} (hlim : limited i = false) (s : State) :
    cfgInfo cfg i s = (opcode i ++ 0#24) ||| (need i &&& ~~~s.ctxValid).setWidth 32 := by
  have hover : overLimit cfg i s = false := by simp [overLimit, hlim]
  rw [opcode_or_words, cfgInfo, missingWords, hover]
  rfl

/-- With every needed word written, the command performs. -/
theorem exec_of_words_written {i : Instr} (hlim : limited i = false) {s : State}
    (hvalid : s.ctxValid &&& need i = need i) : exec i s = .next (commandEffect Config.machine i s) := by
  rw [exec_eq_checked, checked_of_ok ((contextOk_iff_of_not_limited hlim s).mpr hvalid)]

/-- With a needed word missing, the command records `CFG` and does nothing else. -/
theorem exec_of_words_missing {i : Instr} (hlim : limited i = false) {s : State}
    (hvalid : s.ctxValid &&& need i ≠ need i) :
    exec i s =
      .next (recordsError 1#4 ((opcode i ++ 0#24) ||| (need i &&& ~~~s.ctxValid).setWidth 32) s) := by
  have hfail : contextOk Config.machine i s = false := by
    rwa [← Bool.not_eq_true, contextOk_iff_of_not_limited hlim]
  rw [exec_eq_checked, checked_of_not_ok hfail, cfgInfo_of_not_limited hlim]
  rfl

/-! ### The command (R171, R177) -/

/-- The round constants, limb by limb. -/
theorem roundConstants_eq_ofNat (ctx : Context) :
    roundConstants ctx = BitVec.ofNat 128
      (ctx[8].toNat + ctx[9].toNat * 2 ^ 32 + ctx[10].toNat * 2 ^ 64 + ctx[11].toNat * 2 ^ 96) := by
  have hsum : (roundConstants ctx).toNat =
      ctx[8].toNat + ctx[9].toNat * 2 ^ 32 + ctx[10].toNat * 2 ^ 64 + ctx[11].toNat * 2 ^ 96 := by
    simp only [roundConstants, toNat_append_eq_add]
    omega
  rw [← hsum, BitVec.ofNat_toNat, BitVec.setWidth_eq]

/-- Settles O30: the two outcomes of the check of `C0..C3`, with the effect of `HSTEP`. -/
theorem hstepResult : Obligations.HstepResult := by
  intro rd ra s
  obtain ⟨-, -, -, -, -, -, -, -, -, -, hencode, -⟩ := encodingFormula rd ra 0
  refine ⟨hencode, fun hvalid => ?written, fun hvalid => ?missing⟩
  case written =>
    rw [← roundConstants_eq_ofNat]
    exact exec_of_words_written rfl hvalid
  case missing =>
    have hpattern : opcode (.hstep rd ra) ++ 0#24 = 0x10000000#32 :=
      (by decide : 0x10#8 ++ 0#24 = 0x10000000#32)
    rw [exec_of_words_missing rfl hvalid, hpattern]
    rfl

end Sys2Proof.Machine
end

section
/-! The statements on the seed, the evaluation and the XOR fold of 42_seed_combine.md. First the seed as limbs and side by
side, the evaluation as an iteration and the fold as a sum in any order; then what a command does that uses an index
memory; last the commands `SEED`, `EVAL`, `COMBINE`. -/

namespace Sys2Proof.Machine

/-! ### The seed (R191) -/

/-- The limbs of the number that eight limbs stand for are these limbs. -/
theorem map_limb_ofLimbs8 {ls : List Word} (hlen : ls.length = 8) :
    (List.range 8).map (limb (ofLimbs8 ls)) = ls := by
  refine List.ext_getElem (by simp [hlen]) fun k _ hk => ?_
  rw [List.getElem_map, List.getElem_range, limb_ofLimbs8 hlen (hlen ▸ hk)]

/-- Settles O21: a seed is given by its eight limbs. -/
theorem seedLimbs : Obligations.SeedLimbs :=
  fun _ _ => map_limb_ofLimbs8 rfl

/-- Eight limbs side by side, limb 0 in the lowest bits. -/
theorem ofLimbs8_eq_append (l₀ l₁ l₂ l₃ l₄ l₅ l₆ l₇ : Word) :
    ofLimbs8 [l₀, l₁, l₂, l₃, l₄, l₅, l₆, l₇] = l₇ ++ l₆ ++ l₅ ++ l₄ ++ l₃ ++ l₂ ++ l₁ ++ l₀ := by
  apply BitVec.eq_of_toNat_eq
  rw [toNat_ofLimbs8 rfl]
  simp only [limbsToNat, toNat_append_eq_add]
  omega

theorem seedOf_eq_append (ctx : Context) (index : Word) :
    seedOf ctx index = ctx[4] ++ ctx[4] ++ ctx[2] ++ ctx[2] ++ ctx[0] ++ ctx[0] ++ 0#32 ++ index :=
  ofLimbs8_eq_append _ _ _ _ _ _ _ _

/-! ### The evaluation (R175, R192) -/

theorem hashStepIter_eq_iterate (c : U128) (n : Nat) (x : U256) :
    hashStepIter c n x = (fun y => hashStep y c)^[n] x := by
  induction n with
  | zero => rfl
  | succ n ih => rw [hashStepIter, ih, Function.iterate_succ_apply']

theorem evaluate_eq_iterate (ctx : Context) (index : Word) :
    evaluate ctx index = (fun y => hashStep y (roundConstants ctx))^[ctx[6].toNat] (seedOf ctx index) :=
  hashStepIter_eq_iterate _ _ _

/-! ### The XOR fold (R193) -/

/-- The step of the fold of R193 may take the indices in any order. -/
theorem xor_evaluate_rightCommutative (ctx : Context) :
    RightCommutative fun (acc : U256) (i : Word) => acc ^^^ evaluate ctx i :=
  ⟨fun acc i j => by rw [BitVec.xor_assoc, BitVec.xor_assoc, BitVec.xor_comm (evaluate ctx i)]⟩

theorem combine_perm (ctx : Context) {xs ys : List Word} (h : xs.Perm ys) : combine ctx xs = combine ctx ys :=
  have := xor_evaluate_rightCommutative ctx
  h.foldl_eq zero256

@[simp] theorem combine_nil (ctx : Context) : combine ctx [] = 0 := rfl

theorem combine_concat (ctx : Context) (xs : List Word) (i : Word) :
    combine ctx (xs ++ [i]) = combine ctx xs ^^^ evaluate ctx i :=
  List.foldl_concat ..

/-- The first index may be folded in last. -/
theorem combine_cons (ctx : Context) (i : Word) (xs : List Word) :
    combine ctx (i :: xs) = evaluate ctx i ^^^ combine ctx xs := by
  rw [combine_perm ctx (List.perm_append_singleton i xs).symm, combine_concat, BitVec.xor_comm]

/-- A repeated index cancels, since `x XOR x` is `ZERO256` (R145). -/
theorem combine_cons_self (ctx : Context) (i : Word) (xs : List Word) :
    combine ctx (i :: i :: xs) = combine ctx xs := by
  rw [combine_cons, combine_cons, ← BitVec.xor_assoc, BitVec.xor_self, BitVec.zero_xor]

/-- Settles O22: the step of the fold commutes with itself. -/
theorem combineOrderIndependent : Obligations.CombineOrderIndependent :=
  fun ctx xs _ hperm => ⟨combine_perm ctx hperm, fun i => combine_cons_self ctx i xs, fun i => combine_cons ctx i xs,
    combine_nil ctx⟩

theorem combine_eq_foldr (ctx : Context) (xs : List Word) :
    combine ctx xs = xs.foldr (fun i acc => evaluate ctx i ^^^ acc) 0 := by
  induction xs with
  | nil => rfl
  | cons i xs ih => rw [combine_cons, ih, List.foldr_cons]

/-- The proof of the candidate in `CAND`, slot by slot (R196). -/
theorem combine_candidateWords (cfg : Config) (s : State) :
    combine s.context (candidateWords cfg s) =
      (List.range s.context[7].toNat).foldr (fun i acc => evaluate s.context (readCand cfg s i) ^^^ acc) 0 := by
  rw [combine_eq_foldr, candidateWords, memWords, List.foldr_map]
  rfl

/-! ### Commands that use an index memory (R101, R108) -/

theorem overLimit_iff_of_limited {cfg : Config} {i : Instr} (hlim : limited i = true) (s : State) :
    overLimit cfg i s = true ↔ s.ctxValid.getLsbD 7 ∧ cfg.nidxMax < (maxIndices s.context).toNat := by
  simp only [overLimit, hlim, Bool.true_and, Bool.and_eq_true, decide_eq_true_eq]

/-- The check passes exactly when every needed word has been written and `MAX_INDICES`, one of them, is within the
limit. -/
theorem contextOk_iff_of_limited {cfg : Config} {i : Instr} (hlim : limited i = true)
    (hneed : (need i).getLsbD 7 = true) (s : State) :
    contextOk cfg i s = true ↔ s.ctxValid &&& need i = need i ∧ (maxIndices s.context).toNat ≤ cfg.nidxMax := by
  constructor
  · intro hok
    obtain ⟨hmissing, -⟩ := contextOk_iff.mp hok
    exact ⟨(and_not_eq_zero_iff _ _).mp hmissing, maxIndices_le_of_contextOk hok hlim hneed⟩
  · rintro ⟨hvalid, hle⟩
    have hover : overLimit cfg i s = false := by
      rw [← Bool.not_eq_true, overLimit_iff_of_limited hlim]
      exact fun ⟨_, hlt⟩ => hlt.not_ge hle
    exact contextOk_iff.mpr ⟨(and_not_eq_zero_iff _ _).mpr hvalid, hover⟩

/-- The information word of `CFG` as the or of its three parts (R108). -/
theorem cfgInfo_eq_or (cfg : Config) (i : Instr) (s : State) :
    cfgInfo cfg i s = (opcode i ++ 0#24) ||| (if overLimit cfg i s then 0x10000#32 else 0#32) |||
      (need i &&& ~~~s.ctxValid).setWidth 32 := by
  have hlimit : ∀ b : Bool, (if b then 0x10000#32 else 0#32) = 0#8 ++ 0#7 ++ BitVec.ofBool b ++ 0#16 := by decide
  calc cfgInfo cfg i s
      = (opcode i ++ 0#7 ++ 0#1 ++ missingWords i s) ||| (0#8 ++ 0#7 ++ BitVec.ofBool (overLimit cfg i s) ++ 0#16) := by
        simp only [cfgInfo, BitVec.or_append, BitVec.or_zero, BitVec.zero_or]
    _ = (opcode i ++ 0#24) ||| (missingWords i s).setWidth 32 ||| (if overLimit cfg i s then 0x10000#32 else 0#32) := by
        rw [opcode_or_words, hlimit]
    _ = _ := by rw [BitVec.or_assoc, BitVec.or_comm (BitVec.setWidth ..), ← BitVec.or_assoc, missingWords]

/-- With every needed word written and `MAX_INDICES` within the limit, the command performs. -/
theorem exec_of_limit_kept {i : Instr} (hlim : limited i = true) (hneed : (need i).getLsbD 7 = true) {s : State}
    (hok : s.ctxValid &&& need i = need i ∧ (maxIndices s.context).toNat ≤ Config.machine.nidxMax) :
    exec i s = .next (commandEffect Config.machine i s) := by
  rw [exec_eq_checked, checked_of_ok ((contextOk_iff_of_limited hlim hneed s).mpr hok)]

/-- With a needed word missing or `MAX_INDICES` over the limit, the command records `CFG` and does nothing else. -/
theorem exec_of_limit_failed {i : Instr} (hlim : limited i = true) (hneed : (need i).getLsbD 7 = true) {s : State}
    (hfail : ¬ (s.ctxValid &&& need i = need i ∧ (maxIndices s.context).toNat ≤ Config.machine.nidxMax)) :
    exec i s = .next (recordsError 1#4
      ((opcode i ++ 0#24) |||
        (if s.ctxValid.getLsbD 7 ∧ Config.machine.nidxMax < (maxIndices s.context).toNat then 0x10000#32 else 0#32) |||
        (need i &&& ~~~s.ctxValid).setWidth 32) s) := by
  rw [← contextOk_iff_of_limited hlim hneed, Bool.not_eq_true] at hfail
  rw [exec_eq_checked, checked_of_not_ok hfail, cfgInfo_eq_or]
  simp only [overLimit_iff_of_limited hlim]
  rfl

/-! ### The commands (R194, R195, R196) -/

/-- Settles O31: the two outcomes of the check of the three words, with the effect of `SEED`. -/
theorem seedResult : Obligations.SeedResult := by
  intro rd s
  obtain ⟨-, -, -, -, -, -, -, -, -, -, -, hencode, -⟩ := encodingFormula rd 0 0
  refine ⟨hencode, fun hvalid => ?written, fun hvalid => ?missing⟩
  case written =>
    rw [← seedOf_eq_append]
    exact exec_of_words_written rfl hvalid
  case missing =>
    have hpattern : opcode (.seed rd) ++ 0#24 = 0x20000000#32 :=
      (by decide : 0x20#8 ++ 0#24 = 0x20000000#32)
    rw [exec_of_words_missing rfl hvalid, hpattern]
    rfl

/-- Settles O32: the two outcomes of the check of the eight words, with the effect of `EVAL`. -/
theorem evalResult : Obligations.EvalResult := by
  intro rd s
  obtain ⟨-, -, -, -, -, -, -, -, -, -, -, -, hencode, -⟩ := encodingFormula rd 0 0
  refine ⟨hencode, fun hvalid => ?written, fun hvalid => ?missing⟩
  case written =>
    rw [← evaluate_eq_iterate]
    exact exec_of_words_written rfl hvalid
  case missing =>
    have hpattern : opcode (.eval rd) ++ 0#24 = 0x21000000#32 :=
      (by decide : 0x21#8 ++ 0#24 = 0x21000000#32)
    rw [exec_of_words_missing rfl hvalid, hpattern]
    rfl

/-- Settles O33: the two outcomes of the check of the words and of the limit, with the effect of `COMBINE`. -/
theorem combineResult : Obligations.CombineResult := by
  intro rd s
  obtain ⟨-, -, -, -, -, -, -, -, -, -, -, -, -, hencode, -⟩ := encodingFormula rd 0 0
  have hneed : (need (.combine rd)).getLsbD 7 = true := (by decide : (0x0FD5#16).getLsbD 7 = true)
  refine ⟨hencode, fun hok => ?performed, fun hfail => ?failed⟩
  case performed =>
    rw [← combine_candidateWords]
    exact exec_of_limit_kept rfl hneed hok
  case failed =>
    have hpattern : opcode (.combine rd) ++ 0#24 = 0x22000000#32 :=
      (by decide : 0x22#8 ++ 0#24 = 0x22000000#32)
    rw [exec_of_limit_failed rfl hneed hfail, hpattern]
    rfl

end Sys2Proof.Machine
end

section
/-! The statements on the candidate generator of 43_generator.md, and what it gives the result of a call. First the
generated sequence in closed form over the draws of its stream, its spacing and its bounds; then the command `GEN`; last
the result of a call, operation by operation, up to the step. -/

namespace Sys2Proof.Machine

/-! ### The draws of a stream, from the first one on (R211) -/

section Draws
variable (cfg : Config) (r : RngState)

theorem streamAfter_draw (k : Nat) : streamAfter cfg (draw cfg r).1 k = streamAfter cfg r (k + 1) := by
  induction k with
  | zero => rfl
  | succ k ih => exact congrArg (fun q => (cfg.rngStep q).1) ih

theorem increment_draw (k : Nat) : increment cfg (draw cfg r).1 k = increment cfg r (k + 1) := by
  rw [increment, streamAfter_draw, increment]

/-- The cursor counted from the second draw on lags by the first increment. -/
theorem cursorAt_succ (i : Nat) : cursorAt cfg r (i + 1) = (draw cfg r).2 + cursorAt cfg (draw cfg r).1 i := by
  induction i with
  | zero => rw [cursorAt, cursorAt, increment_draw]; rfl
  | succ i ih => rw [cursorAt, ih, cursorAt, increment_draw, Nat.add_assoc]

/-- The sum of `i + 1` increments, each of 1 to 10 (R213). -/
theorem cursorAt_range (i : Nat) : i + 1 ≤ cursorAt cfg r i ∧ cursorAt cfg r i ≤ 10 * (i + 1) := by
  induction i with
  | zero => exact draw_range cfg r
  | succ i ih =>
    have hinc : 1 ≤ increment cfg r (i + 1) ∧ increment cfg r (i + 1) ≤ 10 := draw_range cfg _
    rw [cursorAt]
    omega

end Draws

/-! ### The generated sequence (R212, R213) -/

/-- The loop of `generate` in closed form: each slot is the cursor after its draw. -/
theorem generateFrom_eq (cfg : Config) (n cursor : Nat) (r : RngState) :
    generateFrom cfg n cursor r =
      ((List.range n).map fun i => BitVec.ofNat 32 (cursor + cursorAt cfg r i), streamAfter cfg r n) := by
  induction n generalizing cursor r with
  | zero => rfl
  | succ n ih =>
    simp only [generateFrom, ih, streamAfter_draw, List.range_succ_eq_map, List.map_cons, List.map_map,
      Function.comp_def, cursorAt_succ, Nat.add_assoc]
    rfl

theorem generate_eq (cfg : Config) (n : Nat) (r : RngState) :
    generate cfg n r = ((List.range n).map fun i => BitVec.ofNat 32 (cursorAt cfg r i), streamAfter cfg r n) := by
  simp only [generate, generateFrom_eq, Nat.zero_add]

/-- Below the capacity of the index memories a cursor is a 32-bit value (R6, R213). -/
theorem toNat_ofNat_cursorAt {cfg : Config} {i : Nat} (hi : i < cfg.nidxMax) (r : RngState) :
    (BitVec.ofNat 32 (cursorAt cfg r i)).toNat = cursorAt cfg r i := by
  have hrange := cursorAt_range cfg r i
  have hsize := nidxMax_range cfg
  rw [BitVec.toNat_ofNat, Nat.mod_eq_of_lt (by omega)]

/-- Draws that leave the cursor below `2^32` space the words by their increments. -/
theorem spaced_generateFrom {cfg : Config} {n cursor : Nat} (hfit : cursor + 10 * n < 2 ^ 32) (r : RngState) :
    Spaced cursor (generateFrom cfg n cursor r).1 := by
  induction n generalizing cursor r with
  | zero => exact trivial
  | succ n ih =>
    have hinc := draw_range cfg r
    have hword : (BitVec.ofNat 32 (cursor + (draw cfg r).2)).toNat = cursor + (draw cfg r).2 := by
      rw [BitVec.toNat_ofNat, Nat.mod_eq_of_lt (by omega)]
    simp only [generateFrom, Spaced, hword]
    exact ⟨by omega, by omega, ih (by omega) _⟩

theorem spaced_generate {cfg : Config} {n : Nat} (hn : n ≤ cfg.nidxMax) (r : RngState) :
    Spaced 0 (generate cfg n r).1 := by
  have hsize := nidxMax_range cfg
  exact spaced_generateFrom (by omega) r

/-- Spaced words lie above the word before them. -/
theorem lt_of_spaced {prev : Nat} {ws : List Word} (h : Spaced prev ws) {w : Word} (hw : w ∈ ws) : prev < w.toNat := by
  induction ws generalizing prev with
  | nil => exact absurd hw List.not_mem_nil
  | cons x ws ih =>
    obtain ⟨hlt, -, hrest⟩ := h
    obtain rfl | hmem := List.mem_cons.mp hw
    · exact hlt
    · exact Nat.lt_trans hlt (ih hrest hmem)

/-- Spaced words rise strictly. -/
theorem pairwise_of_spaced {prev : Nat} {ws : List Word} (h : Spaced prev ws) :
    ws.Pairwise fun a b => a.toNat < b.toNat := by
  induction ws generalizing prev with
  | nil => exact List.Pairwise.nil
  | cons x ws ih =>
    obtain ⟨-, -, hrest⟩ := h
    exact List.Pairwise.cons (fun _ => lt_of_spaced hrest) (ih hrest)

/-- Settles O35: the spacing by induction on the draws, the value of a slot by the closed form. -/
theorem generatedSequenceSpaced : Obligations.GeneratedSequenceSpaced := by
  intro n r hn
  have hspaced := spaced_generate hn r
  refine ⟨generateFrom_length _ _ _ _, hspaced, pairwise_of_spaced hspaced, fun i w hw => ?_⟩
  rw [generate_eq, List.getElem?_map, Option.map_eq_some_iff] at hw
  obtain ⟨j, hj, rfl⟩ := hw
  obtain ⟨hi, rfl⟩ := List.getElem?_eq_some_iff.mp hj
  rw [List.length_range] at hi
  rw [List.getElem_range, toNat_ofNat_cursorAt (by omega)]
  obtain ⟨hlo, hhi⟩ := cursorAt_range Config.machine r i
  exact ⟨hlo, hhi, rfl⟩

/-! ### The command `GEN` (R214) -/

/-- The words of `CAND` that `GEN` does not write (R214). -/
theorem readCand_genPerformed_of_le {cfg : Config} {s : State}
    (hwf : memWf (coldCand cfg s) cfg.nidxMax s.cand = true) {i : Nat} (hi : (maxIndices s.context).toNat ≤ i) :
    readCand cfg (genPerformed cfg s) i = readCand cfg s i := by
  have hlen : (generate cfg (maxIndices s.context).toNat s.hostRng).1.length = (maxIndices s.context).toNat :=
    generateFrom_length _ _ _ _
  have hread := memRead_memWriteFrom (coldCand cfg s) (generate cfg (maxIndices s.context).toNat s.hostRng).1
    (memWf_rising hwf) 0 i
  rwa [if_neg (by omega)] at hread

/-- `GEN` needs `MAX_INDICES` and no other word (R108). -/
theorem need_gen_and (x : BitVec 16) : need .gen &&& x = if x.getLsbD 7 then 0x0080#16 else 0#16 :=
  BitVec.twoPow_and x 7

/-- The context check of `GEN` in the words of R214. -/
theorem ctxValid_and_need_gen (s : State) : s.ctxValid &&& need .gen = need .gen ↔ s.ctxValid.getLsbD 7 = true := by
  rw [BitVec.and_comm, need_gen_and]
  cases s.ctxValid.getLsbD 7 <;> decide

/-- Settles O34: the slots by the closed form of the sequence, and the two causes of `CFG` one by one. -/
theorem genResult : Obligations.GenResult := by
  have hneed : (need .gen).getLsbD 7 = true := by decide
  refine ⟨rfl, fun s => ⟨fun hwf hvalid hlimit => ?performed, fun hfail => ?failed⟩⟩
  case performed =>
    refine ⟨genPerformed Config.machine s, ?completes, ?frame, fun i hi => ?slots,
      fun i hi => readCand_genPerformed_of_le hwf hi⟩
    case completes => exact exec_of_limit_kept rfl hneed ⟨(ctxValid_and_need_gen s).mpr hvalid, hlimit⟩
    case frame =>
      have hstream := congrArg Prod.snd (generate_eq Config.machine (maxIndices s.context).toNat s.hostRng)
      exact congrArg (fun r => { s with cand := (genPerformed Config.machine s).cand, hostRng := r }) hstream
    case slots =>
      rw [readCand_genPerformed hwf hi, generate_eq]
      simp [show i < (maxIndices s.context).toNat from hi]
  case failed =>
    have hcheck := exec_of_limit_failed rfl hneed (s := s) (by rwa [ctxValid_and_need_gen])
    rw [hcheck, need_gen_and, BitVec.getLsbD_not]
    cases hvalid : s.ctxValid.getLsbD 7 with
    | false => simp [opcode]
    | true =>
      have hover : Config.machine.nidxMax < (maxIndices s.context).toNat := by
        by_contra hle
        exact hfail ⟨hvalid, Nat.le_of_not_lt hle⟩
      simp [hover, opcode]

/-! ### The result of a call is genuine (R232) -/

/-- The fields that decide whether the best result is genuine. -/
def State.resultFields (s : State) : Word × U256 × WordMem × Context × Nat :=
  (s.bestLen, s.bestProof, s.bestIdx, s.context, s.resets)

theorem BestGenuine.of_resultFields_eq {cfg : Config} {s t : State} (h : BestGenuine cfg s)
    (ht : t.resultFields = s.resultFields) : BestGenuine cfg t := by
  simp only [State.resultFields, Prod.mk.injEq] at ht
  obtain ⟨hlen, hproof, hidx, hctx, hresets⟩ := ht
  have hcold : coldBestIdx cfg t = coldBestIdx cfg s := by unfold coldBestIdx; rw [hresets]
  have hwords : bestWords cfg t = bestWords cfg s := by rw [bestWords, hcold, hidx, hlen, bestWords]
  rw [BestGenuine, hwords, hlen, hproof, hctx]
  exact h

/-- A move from `s` to `t` within a call, its `START` and its end included, leaves a genuine best result. -/
def GenuineInCall (cfg : Config) (s t : State) : Prop :=
  s.sched = .searching ∨ t.sched = .searching → BestGenuine cfg t

/-- A move that begins no call and leaves the result alone. -/
theorem GenuineInCall.of_frame {cfg : Config} {s t : State} (h : s.CallInv cfg)
    (ht : t.resultFields = s.resultFields) (hsched : t.sched = .searching → s.sched = .searching) :
    GenuineInCall cfg s t := by
  intro hcall
  have hs : s.sched = .searching := hcall.elim id hsched
  exact (h hs).of_resultFields_eq ht

/-- A move outside a call is not asked for a result. -/
theorem GenuineInCall.of_not_searching {cfg : Config} {s t : State} (hs : s.sched ≠ .searching)
    (hsched : t.sched = s.sched) : GenuineInCall cfg s t := by
  rintro (hcall | hcall)
  · exact absurd hcall hs
  · exact absurd (hsched ▸ hcall) hs

theorem hostRead_genuine {cfg : Config} {s : State} (h : s.CallInv cfg) (a : Word) :
    GenuineInCall cfg s (hostRead cfg a s) := by
  obtain heq | ⟨x, heq⟩ := hostRead_cases cfg a s <;> rw [heq]
  · exact .of_frame h rfl id
  · exact .of_frame h rfl id

theorem advanceClock_genuine {cfg : Config} {s : State} (h : s.CallInv cfg) (c : U64) :
    GenuineInCall cfg s (advanceClock c s) := by
  obtain ⟨-, heq⟩ | ⟨-, heq⟩ := advanceClock_cases c s <;> rw [heq]
  · exact .of_frame h rfl id
  · exact .of_frame h rfl id

/-- `START` begins a call with the worst proof; no other command begins one (R222, R224). -/
theorem commandEffect_genuine (cfg : Config) (i : Instr) {s : State} (hs : s.sched ≠ .searching) :
    GenuineInCall cfg s (commandEffect cfg i s) := by
  cases i with
  | start => exact fun _ => .inl ⟨rfl, rfl⟩
  | _ => exact .of_not_searching hs rfl

theorem hostWrite_genuine {a w : Word} {s t : State} (h : s.CallInv Config.machine)
    (ht : hostWrite Config.machine a w s = .next t) : GenuineInCall Config.machine s t := by
  obtain ⟨e, info, rfl⟩ | ⟨hs, -, i, -, rfl⟩ | ⟨tgt, -, hs | rfl, rfl⟩ := hostWrite_result ht
  · exact .of_frame h rfl id
  · exact commandEffect_genuine _ i hs
  · exact .of_not_searching hs (by rw [storeTarget_frame])
  · exact .of_frame h rfl id

/-- The merge stores a lane's generated candidate with its proof (R226, R227). -/
theorem bestGenuine_reduceBatch {cfg : Config} {s : State} (hinv : s.Inv cfg) (hs : s.sched = .searching)
    (h : BestGenuine cfg s) : BestGenuine cfg (reduceBatch cfg (batchRun cfg s) s) := by
  obtain heq | ⟨l, hl, -, heq⟩ := reduceBatch_cases cfg (batchRun cfg s) s
  · rwa [heq]
  · have hwords : memWords (coldBestIdx cfg s) (memWriteFrom (coldBestIdx cfg s) s.bestIdx 0 l.cand)
        (maxIndices s.context).toNat = l.cand := by
      rw [← cand_length_of_mem_batchRun hl]
      exact memWords_memWriteFrom _ _ (memWf_rising hinv.bestIdx_wf)
    obtain ⟨lane, -, rfl⟩ := List.mem_map.mp hl
    rw [heq]
    refine .inr ⟨rfl, ?spaced, ?proof⟩
    case spaced => exact (congrArg (Spaced 0) hwords).mpr (spaced_generate (hinv.searching_limit hs) lane.rng)
    case proof => exact congrArg (combine s.context) hwords.symm

/-- The scheduler changes the result by the reduction of a batch step only. -/
theorem schedulerStep_genuine {cfg : Config} {s : State} (hinv : s.Inv cfg) (h : s.CallInv cfg) :
    GenuineInCall cfg s (schedulerStep cfg s) := by
  obtain ⟨hs, -, heq⟩ | ⟨hs, -, heq⟩ | ⟨-, heq⟩ := schedulerStep_cases cfg s <;> rw [heq]
  · have hred := bestGenuine_reduceBatch hinv hs (h hs)
    exact fun _ => hred.of_resultFields_eq rfl
  · refine .of_frame h ?_ fun _ => hs
    unfold checkStep
    split <;> rfl
  · exact .of_frame h rfl id

theorem step_genuine {s t : State} (hinv : s.Inv Config.machine) (h : s.CallInv Config.machine)
    (ht : step s = .next t) : GenuineInCall Config.machine s t := by
  have hinvRest (rest : List Event) : { s with inputs := rest }.Inv Config.machine := hinv.of_invFields_eq rfl
  have hcallRest (rest : List Event) : { s with inputs := rest }.CallInv Config.machine := h
  obtain ⟨-, rfl⟩ | ⟨rest, a, -, rfl⟩ | ⟨rest, a, w, -, hw⟩ | ⟨rest, -, rfl⟩ | ⟨rest, c, -, rfl⟩ | ⟨rest, -, rfl⟩ :=
    takeStep_next ht
  · exact schedulerStep_genuine hinv h
  · exact hostRead_genuine (hcallRest rest) a
  · exact hostWrite_genuine (s := { s with inputs := rest }) (hcallRest rest) hw
  · exact schedulerStep_genuine (hinvRest rest) (hcallRest rest)
  · exact advanceClock_genuine (hcallRest rest) c
  · exact fun _ => .inl ⟨rfl, rfl⟩

/-- Settles O54: a step that stays in a call, begins one or ends one leaves a genuine result. -/
theorem bestResultStaysGenuine : Obligations.BestResultStaysGenuine := by
  intro s t hinv h ht
  have hgenuine := step_genuine hinv h ht
  exact ⟨fun hsearching => hgenuine (.inr hsearching), fun hs _ => hgenuine (.inl hs)⟩

end Sys2Proof.Machine
end

section
/-! The statements on the scheduler of 44_scheduler.md. First an equation for each of its turns and for the steps that
give it one; then the batch step, lane by lane, and its reduction; the command `START`; last what every step does to
`STATE` and to the best result. -/

namespace Sys2Proof.Machine

/-! ### The scheduler's turn (R225, R229) -/

theorem schedulerStep_of_not_searching (cfg : Config) {s : State} (hs : s.sched ≠ .searching) :
    schedulerStep cfg s = s := by
  obtain ⟨hs', -⟩ | ⟨hs', -⟩ | ⟨-, heq⟩ := schedulerStep_cases cfg s
  · exact absurd hs' hs
  · exact absurd hs' hs
  · exact heq

theorem schedulerStep_of_batch (cfg : Config) {s : State} (hs : s.sched = .searching) (hphase : s.phase = .batch) :
    schedulerStep cfg s = batchStep cfg s := by
  simp only [schedulerStep, hs, hphase]

theorem schedulerStep_of_check (cfg : Config) {s : State} (hs : s.sched = .searching) (hphase : s.phase = .check) :
    schedulerStep cfg s = checkStep s := by
  simp only [schedulerStep, hs, hphase]

theorem checkStep_of_le {s : State} (h : s.deadline ≤ (s.now.toNat : Int)) :
    checkStep s = { s with sched := .done } := if_pos h

theorem checkStep_of_lt {s : State} (h : (s.now.toNat : Int) < s.deadline) :
    checkStep s = { s with phase := .batch } := if_neg (Int.not_le.mpr h)

/-- Settles O37: outside Searching no scheduler step is enabled. -/
theorem noSchedulerStepOutsideSearching : Obligations.NoSchedulerStepOutsideSearching :=
  fun _ => schedulerStep_of_not_searching _

/-- Settles O38: the check step before the deadline, and from the deadline on. -/
theorem checkStepEffect : Obligations.CheckStepEffect := by
  intro s hs hphase
  rw [schedulerStep_of_check _ hs hphase]
  split
  · next hlt => exact checkStep_of_lt hlt
  · next hge => exact checkStep_of_le (Int.not_lt.mp hge)

/-- The step with no event to come (log entry 11). -/
theorem step_nil {s : State} (h : s.inputs = []) : step s = .next (schedulerStep Config.machine s) := by
  simp only [step, takeStep, h]

/-- The step on a turn of the scheduler (log entry 1). -/
theorem step_scheduler {s : State} {rest : List Event} (h : s.inputs = .scheduler :: rest) :
    step s = .next (schedulerStep Config.machine { s with inputs := rest }) := by
  simp only [step, takeStep, h, react]

/-- Settles O58: with an empty queue outside Searching the scheduler's turn changes nothing. -/
theorem emptyQueueWaitsOrSearches : Obligations.EmptyQueueWaitsOrSearches := by
  refine ⟨fun s hi => ?_, fun s rest => step_scheduler⟩
  rw [step_nil hi]
  split
  · rfl
  · next hs => rw [schedulerStep_of_not_searching _ hs]

/-! ### The lanes of a batch step (R226) -/

section Lanes
variable (cfg : Config) (s : State)

/-- A lane of the batch is the lane of that number, run. -/
theorem batchRun_getElem?_of_lt {k : Nat} (hk : k < s.batchB.toNat) :
    (batchRun cfg s)[k]? = s.lanes[k]?.map (runLane cfg s.context) := by
  rw [batchRun, List.getElem?_map, List.getElem?_take_of_lt hk]

theorem length_batchRun : (batchRun cfg s).length = min s.batchB.toNat s.lanes.length := by
  rw [batchRun, List.length_map, List.length_take]

theorem batchStep_lanes : (batchStep cfg s).lanes = batchRun cfg s ++ s.lanes.drop s.batchB.toNat := rfl

/-- The batch stands in the first lanes. -/
theorem batchStep_getElem?_of_lt {k : Nat} (hk : k < s.batchB.toNat) :
    (batchStep cfg s).lanes[k]? = (batchRun cfg s)[k]? := by
  have hlen := length_batchRun cfg s
  rw [batchStep_lanes]
  by_cases hin : k < (batchRun cfg s).length
  · exact List.getElem?_append_left hin
  · rw [List.drop_eq_nil_of_le (by omega), List.append_nil]

/-- The lanes past the batch stay (R235). -/
theorem batchStep_getElem?_of_le {k : Nat} (hk : s.batchB.toNat ≤ k) :
    (batchStep cfg s).lanes[k]? = s.lanes[k]? := by
  have hlen := length_batchRun cfg s
  rw [batchStep_lanes, List.getElem?_append_right (by omega), List.getElem?_drop]
  by_cases hin : s.batchB.toNat ≤ s.lanes.length
  · rw [show s.batchB.toNat + (k - (batchRun cfg s).length) = k by omega]
  · rw [List.getElem?_eq_none (by omega), List.getElem?_eq_none (by omega)]

/-- What a batch step changes (R226). -/
theorem batchStep_frame :
    let t := batchStep cfg s
    t = { s with
      lanes := t.lanes
      bestProof := t.bestProof
      bestLen := t.bestLen
      bestIdx := t.bestIdx
      warn := t.warn
      batches := s.batches + 1
      phase := .check
      batchSteps := s.batchSteps + 1 } := by
  have hred := reduceBatch_frame cfg (batchRun cfg s) s
  simp only [batchStep]
  rw [hred]

@[simp] theorem batchStep_sched : (batchStep cfg s).sched = s.sched := by rw [batchStep_frame]
@[simp] theorem batchStep_deadline : (batchStep cfg s).deadline = s.deadline := by rw [batchStep_frame]
@[simp] theorem batchStep_now : (batchStep cfg s).now = s.now := by rw [batchStep_frame]
@[simp] theorem batchStep_inputs : (batchStep cfg s).inputs = s.inputs := by rw [batchStep_frame]
@[simp] theorem batchStep_resets : (batchStep cfg s).resets = s.resets := by rw [batchStep_frame]

end Lanes

/-- Settles O39: the lanes below `BATCH_B` are run, the others stay. -/
theorem batchStepEffect : Obligations.BatchStepEffect := by
  intro s hs hphase
  simp only [schedulerStep_of_batch _ hs hphase]
  refine ⟨batchStep_frame _ s, fun hwarn => ?warn, batchStep_lanes_length _ s,
    fun k x y hx hy => ⟨fun hk => ?run, fun hk => ?stay⟩⟩
  case warn => simp [batchStep, hwarn]
  case run =>
    rw [batchStep_getElem?_of_lt _ _ hk, batchRun_getElem?_of_lt _ _ hk, hx] at hy
    cases hy
    exact ⟨rfl, rfl, rfl⟩
  case stay =>
    rw [batchStep_getElem?_of_le _ _ hk, hx] at hy
    cases hy
    rfl

/-! ### The reduction of a batch (R227) -/

theorem cmp256_eq_less_iff (a b : U256) : cmp256 a b = .less ↔ a.toNat < b.toNat := by
  rw [cmp256_eq, cmpNat]
  split_ifs <;> simp_all

theorem cmp256_eq_greater_iff (a b : U256) : cmp256 a b = .greater ↔ b.toNat < a.toNat := by
  rw [cmp256_eq, cmpNat]
  split_ifs <;> simp_all; omega

/-- Lane `k` of a batch is the least with a minimal proof. -/
def LeastMinimal (run : List Lane) (k : Nat) (y : Lane) : Prop :=
  run[k]? = some y ∧ (∀ z ∈ run, y.proof.toNat ≤ z.proof.toNat) ∧
    ∀ (j : Nat) (z : Lane), j < k → run[j]? = some z → y.proof.toNat < z.proof.toNat

/-- The search for the batch-local best finds that lane. -/
theorem batchBest_of_leastMinimal {run : List Lane} {k : Nat} {y : Lane} (h : LeastMinimal run k y) :
    batchBest run = some y := by
  obtain ⟨hk, hmin, hleast⟩ := h
  obtain ⟨hlt, rfl⟩ := List.getElem?_eq_some_iff.mp hk
  refine List.find?_eq_some_iff_getElem.mpr ⟨?minimal, k, hlt, rfl, fun j hj => ?before⟩
  case minimal =>
    simpa [cmp256_eq_greater_iff] using hmin
  case before =>
    have hgreater := (cmp256_eq_greater_iff _ _).mpr (hleast j run[j] hj (List.getElem?_eq_getElem _))
    simp only [Bool.not_eq_eq_eq_not, Bool.not_true, List.all_eq_false]
    exact ⟨run[k], List.getElem_mem _, by simp [hgreater]⟩

theorem mergeBest_of_lt (cfg : Config) {l : Lane} {s : State} (h : l.proof.toNat < s.bestProof.toNat) :
    mergeBest cfg l s =
      { s with
        bestProof := l.proof
        bestLen := maxIndices s.context
        bestIdx := memWriteFrom (coldBestIdx cfg s) s.bestIdx 0 l.cand } :=
  if_pos ((cmp256_eq_less_iff _ _).mpr h)

theorem mergeBest_of_le (cfg : Config) {l : Lane} {s : State} (h : s.bestProof.toNat ≤ l.proof.toNat) :
    mergeBest cfg l s = s :=
  if_neg fun hless => Nat.not_lt.mpr h ((cmp256_eq_less_iff _ _).mp hless)

theorem reduceBatch_of_leastMinimal (cfg : Config) {run : List Lane} {k : Nat} {y : Lane} (h : LeastMinimal run k y)
    (s : State) : reduceBatch cfg run s = mergeBest cfg y s := by
  simp only [reduceBatch, batchBest_of_leastMinimal h]

/-- The reduction in a batch step is the merge of that lane. -/
theorem batchStep_best {cfg : Config} {s : State} {k : Nat} {y : Lane} (h : LeastMinimal (batchRun cfg s) k y) :
    (batchStep cfg s).bestProof = (mergeBest cfg y s).bestProof ∧
    (batchStep cfg s).bestLen = (mergeBest cfg y s).bestLen ∧
    (batchStep cfg s).bestIdx = (mergeBest cfg y s).bestIdx := by
  rw [← reduceBatch_of_leastMinimal cfg h s]
  exact ⟨rfl, rfl, rfl⟩

/-- The lane is the same one whether the batch is looked up in the lanes after the step or on its own. -/
theorem leastMinimal_of_batchStep {cfg : Config} {s : State} {k : Nat} {y : Lane} (hk : k < s.batchB.toNat)
    (hy : (batchStep cfg s).lanes[k]? = some y)
    (hmin : ∀ (j : Nat) (z : Lane), j < s.batchB.toNat → (batchStep cfg s).lanes[j]? = some z →
      y.proof.toNat ≤ z.proof.toNat)
    (hleast : ∀ (j : Nat) (z : Lane), j < k → (batchStep cfg s).lanes[j]? = some z →
      y.proof.toNat < z.proof.toNat) :
    LeastMinimal (batchRun cfg s) k y := by
  refine ⟨by rwa [← batchStep_getElem?_of_lt _ _ hk], fun z hz => ?minimal, fun j z hj hz => ?least⟩
  case minimal =>
    obtain ⟨j, hj, rfl⟩ := List.getElem_of_mem hz
    have hlt : j < s.batchB.toNat := by
      have hlen := length_batchRun cfg s
      omega
    exact hmin j _ hlt (by rw [batchStep_getElem?_of_lt _ _ hlt, List.getElem?_eq_getElem hj])
  case least => exact hleast j z hj (by rwa [batchStep_getElem?_of_lt _ _ (by omega)])

/-- A word of `BEST_IDX` after a batch step; the step is no reset, so what an unwritten word reads as stays. -/
theorem readBestIdx_batchStep (cfg : Config) (s : State) (i : Nat) :
    readBestIdx cfg (batchStep cfg s) i = memRead (coldBestIdx cfg s) (batchStep cfg s).bestIdx i := by
  unfold readBestIdx coldBestIdx
  rw [batchStep_resets]

/-- Settles O40: the merge of the least lane with a minimal proof, and what reads back from the run of words it
writes. -/
theorem reductionTakesLeastLane : Obligations.ReductionTakesLeastLane := by
  intro s k y hs hphase hwf
  simp only [schedulerStep_of_batch _ hs hphase]
  intro hk hy hmin hleast
  have hlane := leastMinimal_of_batchStep hk hy hmin hleast
  obtain ⟨hproof, hlen, hidx⟩ := batchStep_best hlane
  refine ⟨fun hlt => ?replaced, fun hle => ?kept⟩
  case replaced =>
    rw [mergeBest_of_lt _ hlt] at hproof hlen hidx
    have hcand : y.cand.length = s.context[7].toNat :=
      cand_length_of_mem_batchRun (List.mem_of_getElem? hlane.1)
    have hread (i : Nat) : readBestIdx Config.machine (batchStep Config.machine s) i =
        if i < s.context[7].toNat then y.cand.getD i 0 else readBestIdx Config.machine s i := by
      rw [readBestIdx_batchStep, hidx, memRead_memWriteFrom _ _ (memWf_rising hwf), hcand]
      simp only [Nat.zero_le, Nat.zero_add, Nat.sub_zero, true_and]
      rfl
    refine ⟨hproof, hlen, fun i hi => ?written, fun i hi => ?past⟩
    case written => rw [hread, if_pos hi, List.getD_eq_getElem _ _ (by omega), List.getElem?_eq_getElem]
    case past => rw [hread, if_neg (by omega)]
  case kept =>
    rw [mergeBest_of_le _ hle] at hproof hlen hidx
    exact ⟨hproof, hlen, hidx⟩

/-! ### Empty candidates (R233) -/

/-- With `MAX_INDICES = 0` a lane makes the empty candidate, whose proof is the empty fold. -/
theorem runLane_of_maxIndices_zero (cfg : Config) {ctx : Context} (h : maxIndices ctx = 0) (lane : Lane) :
    (runLane cfg ctx lane).cand = [] ∧ (runLane cfg ctx lane).proof = 0 := by
  simp [runLane, h, generate, generateFrom]

/-- Settles O41: every lane has the all-zero proof, so lane 0 is the least; if it is not less than the best proof, the
best proof is zero already. -/
theorem emptyCandidateGivesZeroProof : Obligations.EmptyCandidateGivesZeroProof := by
  intro s hs hphase hmax hlen hbatch hlanes
  simp only [schedulerStep_of_batch _ hs hphase]
  have hempty := runLane_of_maxIndices_zero Config.machine hmax
  have hlane : LeastMinimal (batchRun Config.machine s) 0 (runLane Config.machine s.context s.lanes[0]) := by
    refine ⟨?first, fun z _ => ?minimal, fun j _ hj => absurd hj (Nat.not_lt_zero j)⟩
    case first => rw [batchRun_getElem?_of_lt _ _ hbatch, List.getElem?_eq_getElem hlanes, Option.map_some]
    case minimal => simp [hempty]
  obtain ⟨hcand, hzero⟩ := hempty s.lanes[0]
  obtain ⟨hbestProof, hbestLen, hbestIdx⟩ := batchStep_best hlane
  rw [hbestProof, hbestLen, hbestIdx]
  by_cases hlt : (0 : U256).toNat < s.bestProof.toNat
  · rw [mergeBest_of_lt _ (hzero ▸ hlt)]
    exact ⟨hzero, hmax, by rw [hcand]; rfl⟩
  · rw [mergeBest_of_le _ (hzero ▸ Nat.le_of_not_lt hlt)]
    exact ⟨BitVec.eq_of_toNat_eq (by simpa using hlt), hlen, rfl⟩

/-! ### The command `START` (R222) -/

theorem ctxValid_and_need_start (s : State) :
    s.ctxValid &&& need .start = need .start ↔ s.ctxValid = 0xFFFF#16 := by
  rw [show need .start = BitVec.allOnes 16 from rfl, BitVec.and_allOnes]
  rfl

theorem need_start_maxIndices : (need .start).getLsbD 7 = true := by decide

theorem exec_start_of_ok {s : State} (hvalid : s.ctxValid = 0xFFFF#16)
    (hlimit : (maxIndices s.context).toNat ≤ Config.machine.nidxMax) :
    exec .start s = .next (startPerformed Config.machine s) :=
  exec_of_limit_kept rfl need_start_maxIndices ⟨(ctxValid_and_need_start s).mpr hvalid, hlimit⟩

/-- The step on a write of `START` to `CMD` that is performed. -/
theorem step_start {s : State} {rest : List Event} (hi : s.inputs = .host (.wr 0x80#32 0x40000000#32) :: rest)
    (hs : s.sched ≠ .searching) (hvalid : s.ctxValid = 0xFFFF#16)
    (hlimit : (maxIndices s.context).toNat ≤ Config.machine.nidxMax) :
    step s = .next (startPerformed Config.machine { s with inputs := rest }) := by
  rw [stepRunsDecodedCommand s rest _ .start hi hs rfl]
  exact exec_start_of_ok hvalid hlimit

/-- A write in Searching to a writable target other than `ERR` is refused (R73, case 3). -/
theorem hostWrite_of_searching {cfg : Config} {a : Word} {tgt : Target} {s : State} (ha : resolve cfg a = some tgt)
    (hwritable : tgt.readOnly = false) (herr : tgt ≠ .ctrl .err) (hs : s.sched = .searching) (w : Word) :
    hostWrite cfg a w s = .next (recordsError 4#4 a s) := by
  simp [hostWrite, ha, hwritable, herr, hs, raiseError, recordsError, errorBit]

/-- Settles O36: the two outcomes of the check of all 16 words and of the limit, and the refusal of the write. -/
theorem startResult : Obligations.StartResult := by
  refine ⟨rfl, fun s => ⟨fun hvalid hlimit => ?performed, fun hfail => ?failed, fun rest hs hi => ?busy⟩⟩
  case performed =>
    refine ⟨startPerformed Config.machine s, exec_start_of_ok hvalid hlimit, ?frame, by simp, fun l x y hx hy => ?lane⟩
    case frame =>
      have hworst : ones256 = BitVec.ofNat 256 (2 ^ 256 - 1) := by decide
      rw [← hworst]
      rfl
    case lane =>
      rw [startPerformed_lanes, List.getElem?_mapIdx, hx] at hy
      exact (Option.some.inj hy).symm
  case failed =>
    have hcheck := exec_of_limit_failed rfl need_start_maxIndices (s := s) (by rwa [ctxValid_and_need_start])
    have hpattern : opcode .start ++ 0#24 = 0x40000000#32 := by decide
    have hneed : need .start &&& ~~~s.ctxValid = ~~~s.ctxValid := BitVec.allOnes_and
    rw [hcheck, hpattern, hneed]
    rfl
  case busy =>
    have haddr : resolve Config.machine 0x80#32 = some (.ctrl .cmd) := rfl
    simp only [step, takeStep, hi, react]
    exact hostWrite_of_searching (s := { s with inputs := rest }) haddr rfl (by decide) hs _


/-! ### A call whose deadline is past (R232) -/

/-- The batch step as a step of the machine. -/
theorem step_batch {s : State} {rest : List Event} (h : s.inputs = .scheduler :: rest) (hs : s.sched = .searching)
    (hphase : s.phase = .batch) : step s = .next (batchStep Config.machine { s with inputs := rest }) := by
  rw [step_scheduler h, schedulerStep_of_batch (s := { s with inputs := rest }) _ hs hphase]

/-- The check step at or past the deadline as a step of the machine. -/
theorem step_check_of_le {s : State} {rest : List Event} (h : s.inputs = .scheduler :: rest)
    (hs : s.sched = .searching) (hphase : s.phase = .check) (hpast : s.deadline ≤ (s.now.toNat : Int)) :
    step s = .next { s with inputs := rest, sched := .done } := by
  rw [step_scheduler h, schedulerStep_of_check (s := { s with inputs := rest }) _ hs hphase,
    checkStep_of_le (s := { s with inputs := rest }) hpast]

theorem run_succ {s t : State} (h : step s = .next t) (k : Nat) :
    Host.Core.run Sys2Proof.core (k + 1) s = Host.Core.run Sys2Proof.core k t := by
  simp only [Host.Core.run, Sys2Proof.core, h]

/-- At or past the deadline a batch step and a check step end the call. -/
theorem run_batch_check_of_le {s : State} (hi : s.inputs = [.scheduler, .scheduler]) (hs : s.sched = .searching)
    (hphase : s.phase = .batch) (hpast : s.deadline ≤ (s.now.toNat : Int)) :
    ∃ t, Host.Core.run Sys2Proof.core 2 s = .next t ∧ t.sched = .done ∧ t.batches = s.batches + 1 ∧ t.inputs = [] := by
  have hcheck := step_check_of_le (s := batchStep Config.machine { s with inputs := [.scheduler] }) (batchStep_inputs _ _)
    (by simpa using hs) rfl (by simpa using hpast)
  exact ⟨_, (run_succ (step_batch hi hs hphase) 1).trans (run_succ hcheck 0), rfl, rfl, rfl⟩

/-- Settles O42: `START` takes the deadline from the context, and the two turns of the scheduler end the call. -/
theorem pastDeadlineRunsOneBatch : Obligations.PastDeadlineRunsOneBatch := by
  intro s hi hs hvalid hlimit hpast
  obtain ⟨t, hrun, hdone, hbatches, hempty⟩ :=
    run_batch_check_of_le (s := startPerformed Config.machine { s with inputs := [.scheduler, .scheduler] })
      rfl rfl rfl hpast
  exact ⟨t, (run_succ (step_start hi hs hvalid hlimit) 2).trans hrun, hdone, hbatches, hempty⟩

/-! ### What the host sees of a call (R224, R230) -/

/-- `STATE` and the result registers (R29, R48, R49, R50, R53). -/
def State.callView (s : State) : SchedState × U256 × Word × WordMem × U64 :=
  (s.sched, s.bestProof, s.bestLen, s.bestIdx, s.batches)

theorem hostRead_callView (cfg : Config) (a : Word) (s : State) : (hostRead cfg a s).callView = s.callView := by
  obtain h | ⟨x, h⟩ := hostRead_cases cfg a s <;> rw [h] <;> rfl

theorem advanceClock_callView (c : U64) (s : State) : (advanceClock c s).callView = s.callView := by
  obtain ⟨-, h⟩ | ⟨-, h⟩ := advanceClock_cases c s <;> rw [h]
  rfl

theorem storeTarget_callView (cfg : Config) (w : Word) (s : State) (tgt : Target) :
    (storeTarget cfg w s tgt).callView = s.callView := by
  rw [storeTarget_frame]
  rfl

/-- Of the commands only `START` touches a call (R222). -/
theorem commandEffect_callView (cfg : Config) {i : Instr} (hi : i ≠ .start) (s : State) :
    (commandEffect cfg i s).callView = s.callView := by
  cases i with
  | start => exact absurd rfl hi
  | _ => rfl

theorem hostWrite_callView {a w : Word} {s t : State} (h : hostWrite Config.machine a w s = .next t) :
    t.callView = s.callView ∨
    (s.sched ≠ .searching ∧ a = 0x80#32 ∧ decode w = .ok .start ∧ t = startPerformed Config.machine s) := by
  obtain ⟨e, info, rfl⟩ | ⟨hs, ha, i, hdec, rfl⟩ | ⟨tgt, -, -, rfl⟩ := hostWrite_result h
  · exact .inl rfl
  · by_cases hi : i = .start
    · subst hi
      exact .inr ⟨hs, ha, hdec, rfl⟩
    · exact .inl (commandEffect_callView _ hi s)
  · exact .inl (storeTarget_callView _ _ _ _)

/-- A step leaves what the host sees of a call, or is the scheduler's, or a performed `START`, or a reset (R14, R224). -/
theorem step_callView {s t : State} (h : step s = .next t) :
    t.callView = s.callView ∨
    (∃ q, t = schedulerStep Config.machine { s with inputs := q } ∧
      (s.inputs = [] ∨ ∃ rest, s.inputs = .scheduler :: rest)) ∨
    (s.sched ≠ .searching ∧ ∃ rest w, s.inputs = .host (.wr 0x80#32 w) :: rest ∧ decode w = .ok .start ∧
      t = startPerformed Config.machine { s with inputs := rest }) ∨
    (∃ rest, s.inputs = .reset :: rest ∧ t = resetEvent Config.machine { s with inputs := rest }) := by
  obtain ⟨hi, rfl⟩ | ⟨rest, a, -, rfl⟩ | ⟨rest, a, w, hi, hw⟩ | ⟨rest, hi, rfl⟩ | ⟨rest, c, -, rfl⟩ | hreset :=
    takeStep_next h
  · exact .inr (.inl ⟨s.inputs, rfl, .inl hi⟩)
  · exact .inl (hostRead_callView _ _ _)
  · obtain hsame | ⟨hs, rfl, hdec, rfl⟩ := hostWrite_callView hw
    · exact .inl hsame
    · exact .inr (.inr (.inl ⟨hs, rest, w, hi, hdec, rfl⟩))
  · exact .inr (.inl ⟨rest, rfl, .inr ⟨rest, hi⟩⟩)
  · exact .inl (advanceClock_callView _ _)
  · exact .inr (.inr (.inr hreset))

/-! ### Changes of `STATE` (R224, R231) -/

/-- The scheduler ends a call in a check step at or past the deadline, and changes `STATE` in no other way (R229). -/
theorem schedulerStep_sched (cfg : Config) (s : State) :
    (schedulerStep cfg s).sched = s.sched ∨
    (s.sched = .searching ∧ s.phase = .check ∧ (schedulerStep cfg s).sched = .done ∧
      s.deadline ≤ (s.now.toNat : Int)) := by
  obtain ⟨-, -, heq⟩ | ⟨hs, hphase, heq⟩ | ⟨-, heq⟩ := schedulerStep_cases cfg s
  · exact .inl (by rw [heq, batchStep_sched])
  · by_cases hpast : s.deadline ≤ (s.now.toNat : Int)
    · exact .inr ⟨hs, hphase, by rw [heq, checkStep_of_le hpast], hpast⟩
    · exact .inl (by rw [heq, checkStep_of_lt (Int.not_le.mp hpast)])
  · exact .inl (by rw [heq])

/-- Settles O44: the scheduler, a performed `START` and a reset are the steps that can change `STATE`. -/
theorem stateChangesOnlyAsTheTableSays : Obligations.StateChangesOnlyAsTheTableSays := by
  intro s t h
  obtain hsame | ⟨q, rfl, hturn⟩ | ⟨hs, rest, w, hi, hdec, rfl⟩ | ⟨rest, hi, rfl⟩ := step_callView h
  · exact .inl (congrArg Prod.fst hsame)
  · obtain hsched | ⟨hs, hphase, hdone, hpast⟩ := schedulerStep_sched Config.machine { s with inputs := q }
    · exact .inl hsched
    · exact .inr (.inr (.inl ⟨hs, hphase, hdone, hpast, hturn⟩))
  · exact .inr (.inl ⟨hs, rfl, rfl, rest, w, hi, hdec⟩)
  · exact .inr (.inr (.inr ⟨rfl, rest, hi⟩))

/-- Settles O43: of the changes of `STATE` only the end of the call leaves Searching, and `now` is below `2^64`. -/
theorem unreachableDeadlineKeepsSearching : Obligations.UnreachableDeadlineKeepsSearching := by
  intro s t hs hdeadline h hreset
  obtain ⟨-, -, -, -, -, -, -, -, -, -, -, -, hkept⟩ := searchLeavesHostStateAlone s t hs h hreset
  refine ⟨?_, hkept⟩
  obtain hsame | ⟨hs', -⟩ | ⟨-, -, -, hpast, -⟩ | ⟨-, rest, hi⟩ := stateChangesOnlyAsTheTableSays s t h
  · exact hsame.trans hs
  · exact absurd hs hs'
  · have hnow := s.now.isLt
    omega
  · exact absurd hi (hreset rest)

/-! ### Changes of the best result (R221, R230) -/

/-- Settles O46: outside Searching the scheduler changes nothing, and `START` leads to Searching. -/
theorem resultsStableOutsideSearching : Obligations.ResultsStableOutsideSearching := by
  intro s t hs h ht hreset
  obtain hsame | ⟨q, rfl, -⟩ | ⟨-, rest, w, -, -, rfl⟩ | ⟨rest, hi, -⟩ := step_callView h
  · simp only [State.callView, Prod.mk.injEq] at hsame
    exact hsame.2
  · rw [schedulerStep_of_not_searching (s := { s with inputs := q }) _ hs]
    exact ⟨rfl, rfl, rfl, rfl⟩
  · exact absurd rfl ht
  · exact absurd hi (hreset rest)

/-- The reduction replaces the best proof by a lesser one only (R227). -/
theorem reduceBatch_bestProof_le (cfg : Config) (run : List Lane) (s : State) :
    (reduceBatch cfg run s).bestProof.toNat ≤ s.bestProof.toNat := by
  obtain heq | ⟨l, -, hless, heq⟩ := reduceBatch_cases cfg run s <;> rw [heq]
  exact Nat.le_of_lt ((cmp256_eq_less_iff _ _).mp hless)

theorem schedulerStep_bestProof_le (cfg : Config) (s : State) :
    (schedulerStep cfg s).bestProof.toNat ≤ s.bestProof.toNat := by
  obtain ⟨-, -, heq⟩ | ⟨-, -, heq⟩ | ⟨-, heq⟩ := schedulerStep_cases cfg s <;> rw [heq]
  · exact reduceBatch_bestProof_le cfg (batchRun cfg s) s
  · unfold checkStep
    split <;> exact Nat.le_refl _

/-- Settles O47: in a call the reduction is all that changes the best proof. -/
theorem bestProofNeverWorsens : Obligations.BestProofNeverWorsens := by
  intro s t hs h hreset
  obtain hsame | ⟨q, rfl, -⟩ | ⟨hs', -⟩ | ⟨rest, hi, -⟩ := step_callView h
  · have hproof : t.bestProof = s.bestProof := congrArg (fun v => v.2.1) hsame
    rw [hproof]
  · exact schedulerStep_bestProof_le Config.machine { s with inputs := q }
  · exact absurd hs hs'
  · exact absurd hi (hreset rest)

end Sys2Proof.Machine
end

section
/-! The statements on the errors of 60_exceptions.md. First what the address map says of the unmapped and the read-only
addresses; then one equation for each error that a host access can raise before anything is performed; last the steps. -/

namespace Sys2Proof.Machine

/-! ### The unmapped and the read-only addresses (R71, R73) -/

/-- The addresses of `0x80..0xA9` at which no control register stands are the context words and `BEST_PROOF` (R59). -/
theorem addr_range_of_ctrlRegAt_none {a : Nat} (h : ctrlRegAt a = none) :
    a < 0x80 ∨ (0x88 ≤ a ∧ a < 0x98) ∨ (0xA0 ≤ a ∧ a < 0xA8) ∨ 0xAA ≤ a := by
  unfold ctrlRegAt at h
  split at h
  any_goals contradiction
  simp only [imp_false] at *
  omega

/-- A target that an address names exists (R71). -/
theorem mapped_of_resolve {cfg : Config} {a : Word} {tgt : Target} (h : resolve cfg a = some tgt) : tgt.Mapped cfg := by
  simp only [resolve] at h
  split_ifs at h with hlimb hctx hproof hctrl hcand hbest
  · cases h; trivial
  · cases h; trivial
  · cases h; trivial
  · obtain ⟨c, -, rfl⟩ := Option.map_eq_some_iff.mp h
    trivial
  · cases h; simp only [Target.Mapped]; omega
  · cases h; simp only [Target.Mapped]; omega

/-- No target that exists has an address that R71 calls unmapped. -/
theorem not_unmapped_of_resolve {cfg : Config} {a : Word} {tgt : Target} (h : resolve cfg a = some tgt) :
    ¬ Unmapped cfg a := by
  have hsize := nidxMax_range cfg
  have hmapped := mapped_of_resolve h
  rw [Unmapped, addr_of_resolve h]
  cases tgt with
  | ctrl c => have := c.addr_range; simp only [Target.addr]; omega
  | _ => simp only [Target.addr, Target.Mapped] at *; omega

/-- The address map has no gap but the unmapped ranges of R71. -/
theorem unmapped_of_resolve_none {cfg : Config} {a : Word} (h : resolve cfg a = none) : Unmapped cfg a := by
  simp only [resolve] at h
  split_ifs at h with hlimb hctx hproof hctrl hcand hbest
  · have hrange := addr_range_of_ctrlRegAt_none (Option.map_eq_none_iff.mp h)
    omega
  · simp only [candBase, bestIdxBase] at hcand hbest
    unfold Unmapped
    omega

theorem resolve_eq_none_iff {cfg : Config} {a : Word} : resolve cfg a = none ↔ Unmapped cfg a := by
  refine ⟨unmapped_of_resolve_none, fun hun => ?_⟩
  cases h : resolve cfg a with
  | none => rfl
  | some tgt => exact absurd hun (not_unmapped_of_resolve h)

/-- A mapped address is one of case 2 of R73 exactly when its target is read-only. -/
theorem readOnly_iff_of_resolve {cfg : Config} {a : Word} {tgt : Target} (h : resolve cfg a = some tgt) :
    tgt.readOnly = true ↔ ReadOnly cfg a := by
  have hsize := nidxMax_range cfg
  have hmapped := mapped_of_resolve h
  rw [ReadOnly, addr_of_resolve h]
  cases tgt with
  | ctrl c => cases c <;> simp [Target.readOnly, Target.addr, CtrlReg.addr]
  | _ =>
    simp only [Target.readOnly, Target.addr, Target.Mapped, List.mem_cons, List.not_mem_nil, or_false,
      Bool.false_eq_true, false_iff, true_iff] at *
    omega

/-! ### Accesses that raise (R262) -/

/-- What `raise` does is the one error that the statements speak of. -/
theorem raiseError_eq_recordsError (e : ErrorKind) (info : Word) (s : State) :
    raiseError e info s = recordsError (errorBit e) info s := rfl

theorem hostRead_of_unmapped {cfg : Config} {a : Word} (h : Unmapped cfg a) (s : State) :
    hostRead cfg a s = { recordsError 8#4 a s with rdata := 0 } := by
  simp only [hostRead, resolve_eq_none_iff.mpr h, raiseError_eq_recordsError, errorBit]

/-- Cases 1 and 2 of R73, which come before any look at `STATE`. -/
theorem hostWrite_of_unmapped_or_readOnly {cfg : Config} {a : Word} (h : Unmapped cfg a ∨ ReadOnly cfg a)
    (w : Word) (s : State) : hostWrite cfg a w s = .next (recordsError 8#4 a s) := by
  cases ha : resolve cfg a with
  | none => simp only [hostWrite, ha, raiseError_eq_recordsError, errorBit]
  | some tgt =>
    have hro : tgt.readOnly = true := (readOnly_iff_of_resolve ha).mpr (h.resolve_left (not_unmapped_of_resolve ha))
    simp only [hostWrite, ha, hro, if_true, raiseError_eq_recordsError, errorBit]

/-- Case 3 of R73, said of the address. -/
theorem hostWrite_of_writable_searching {cfg : Config} {a : Word} {s : State} (hmapped : ¬ Unmapped cfg a)
    (hwritable : ¬ ReadOnly cfg a) (herr : a ≠ 0x82#32) (hs : s.sched = .searching) (w : Word) :
    hostWrite cfg a w s = .next (recordsError 4#4 a s) := by
  obtain ⟨tgt, ha⟩ := Option.ne_none_iff_exists'.mp (mt resolve_eq_none_iff.mp hmapped)
  have hro : tgt.readOnly = false := Bool.eq_false_iff.mpr (mt (readOnly_iff_of_resolve ha).mp hwritable)
  have htgt : tgt ≠ .ctrl .err := by
    rintro rfl
    exact herr (BitVec.eq_of_toNat_eq (addr_of_resolve ha))
  exact hostWrite_of_searching ha hro htgt hs w

/-- A word that fits no row of the opcode map is refused by the decoder (R106, R264). -/
theorem runCommand_of_illegal {w : Word} (h : wordWellFormed w = false) (s : State) :
    runCommand w s = .next (recordsError 2#4 w s) := by
  cases hdec : decode w with
  | error e => simp only [runCommand, hdec, raiseError_eq_recordsError, errorBit]
  | ok i =>
    have hw : wordWellFormed w = true := (decoderAgreesWithOpcodeMap w).mp ⟨i, hdec⟩
    exact absurd hw (Bool.eq_false_iff.mp h)

/-- A read raises no error but `ACCESS`: the bit of `BUSY` stays (R265). -/
theorem hostRead_busy (cfg : Config) (a : Word) (s : State) : (hostRead cfg a s).err &&& 4#4 = s.err &&& 4#4 := by
  obtain h | ⟨x, h⟩ := hostRead_cases cfg a s <;> rw [h]
  have hbits : ∀ e : BitVec 4, (e ||| 8#4) &&& 4#4 = e &&& 4#4 := by decide
  exact hbits s.err

/-! ### The steps -/

/-- The step on a host read (R14). -/
theorem step_host_read {s : State} {rest : List Event} {a : Word} (h : s.inputs = .host (.rd a) :: rest) :
    step s = .next (hostRead Config.machine a { s with inputs := rest }) := by
  simp only [step, takeStep, h, react]

/-- The step on a host write (R14). -/
theorem step_host_write {s : State} {rest : List Event} {a w : Word} (h : s.inputs = .host (.wr a w) :: rest) :
    step s = hostWrite Config.machine a w { s with inputs := rest } := by
  simp only [step, takeStep, h, react]

/-- Settles O8: the write reaches `CMD`, and the decoder refuses the word. -/
theorem illegalWordRecordsIllcmd : Obligations.IllegalWordRecordsIllcmd := by
  intro s rest w hi hs hw
  calc step s
    _ = hostWrite Config.machine cmdAddr w { s with inputs := rest } := step_host_write hi
    _ = runCommand w { s with inputs := rest } := hostWrite_cmd (s := { s with inputs := rest }) _ hs w
    _ = .next (recordsError 2#4 w { s with inputs := rest }) := runCommand_of_illegal hw _

/-- Settles O9: both checks of the address come before that of `STATE`. -/
theorem accessErrors : Obligations.AccessErrors := by
  refine fun s rest a w => ⟨fun hi hun => ?read, fun hi haddr => ?write⟩
  case read => rw [step_host_read hi, hostRead_of_unmapped hun]
  case write => rw [step_host_write hi, hostWrite_of_unmapped_or_readOnly haddr]

/-- Settles O10: a write by case 3 of R73, a read by what it does to `ERR`. -/
theorem writesRefusedWhileSearching : Obligations.WritesRefusedWhileSearching := by
  refine fun s rest a w => ⟨fun hi hs hmapped hwritable herr => ?write, fun hi => ?read⟩
  case write =>
    rw [step_host_write hi]
    exact hostWrite_of_writable_searching (s := { s with inputs := rest }) hmapped hwritable herr hs w
  case read =>
    exact ⟨_, step_host_read hi, hostRead_busy Config.machine a { s with inputs := rest }⟩

end Sys2Proof.Machine
end

section
/-! The statements on 70_reset_and_hazards.md: the machine right after power-on has the invariant, and the values that
the reset event gives. -/

namespace Sys2Proof.Machine

/-! ### The invariant at power-on (R290) -/

/-- In every configuration: both index memories list nothing (log entry 6), `BATCH_B` is 1, and no call runs. -/
theorem powerOn_inv (cfg : Config) : (State.powerOn cfg).Inv cfg where
  cand_wf := memWf_nil _ _
  bestIdx_wf := memWf_nil _ _
  batchB_pos := Nat.le_refl 1
  batchB_le := (bMax_range cfg).1
  lanes_length := List.length_replicate
  bestLen_le := Nat.zero_le _
  searching_valid := nofun
  searching_limit := nofun

/-- Settles O53: the machine's reset state is power-on in the machine's configuration. -/
theorem resetHasInv : Obligations.ResetHasInv := powerOn_inv Config.machine

/-! ### The reset event (R290, R291) -/

/-- The step on a reset, whatever `STATE` is. -/
theorem step_reset {s : State} {rest : List Event} (h : s.inputs = .reset :: rest) :
    step s = .next (resetEvent Config.machine { s with inputs := rest }) := by
  simp only [step, takeStep, h, react]

/-- Settles O56: the step applies the reset event, whose lemmas give each value; `ONES256` is `2^256 - 1` (R12). -/
theorem resetEventValues : Obligations.ResetEventValues := by
  intro s rest hi
  refine ⟨_, step_reset hi, ?_⟩
  have hones : ones256 = BitVec.ofNat 256 (2 ^ 256 - 1) := rfl
  simp [hones]

end Sys2Proof.Machine
end
